-- ==== Sys2Proof/Word.lean ====
section
/-! DEFINITION. The words of the wire: bytes, two-byte words and cartridge identifiers. -/

namespace Sys2Proof

/-- One byte of a message, a dock frame or a probe answer (chapter 11). -/
abbrev Byte := BitVec 8

/-- A two-byte number of the wire, such as a tag, a length or a check (chapter 11). -/
abbrev Word16 := BitVec 16

/-- A cartridge identifier as it arrives: its characters, first character first, one byte each (R1, R65). An
identifier of any other shape than R1's is malformed and never enters the register. -/
abbrev Ident := List Byte

end Sys2Proof
end

