-- ==== Sys2Proof/Syntax.lean ====
section
/-! DEFINITION. The commands the block takes: one constructor per row of spec/opcode_table.json, and the types of their
operands. -/

namespace Sys2Proof

/-- The four reports of a detector channel (R116). -/
inductive ChannelState
  | normal | alert | alarm | fault
  deriving DecidableEq, Repr

/-- The two switches that hold a confirmed zone from counting down (R119). -/
inductive Switch
  | hold | isolate
  deriving DecidableEq, Repr

/-- The five message kinds of a transfer (chapter 7). -/
inductive PeerKind
  | offer | take | decline | withdraw | arrived
  deriving DecidableEq, Repr

/-- The two message kinds that a zone controller ignores (R168). -/
inductive IgnoredKind
  | answer | notice
  deriving DecidableEq, Repr

/-- A slot message as heard, without its kind byte, which the command gives: the header fields, the payload bytes that
followed, and the check received (11.1). Whether it is well formed is judged by R189. -/
structure SlotFrame where
  dest    : Byte
  tag     : Word16
  length  : Word16
  payload : List Byte
  check   : Word16
  deriving DecidableEq, Repr

/-- One climate interval of an IDENTITY frame as the case sends it (11.4): the temperature is two's complement. -/
structure RawInterval where
  minutes     : Byte
  rh          : Word16
  temperature : Word16
  deriving DecidableEq, Repr

/-- What shows a second station on this address (R174): a message heard in the own slot, or a read-back that differs
from what is being sent. -/
inductive ConflictSign
  | heard (kind : Byte) (frame : SlotFrame)
  | readBack
  deriving DecidableEq, Repr

/-- A command: one constructor per row of spec/opcode_table.json, in the table's order. -/
inductive Instr
  | coldStart
  | warmReset
  | zoneClockSecond
  | minuteEvent
  | manifestExpiry
  | rollover
  | conditioningComplete
  | enrol
  | retire
  | shelve
  | queryRecord
  | releaseSuspectShelve
  | releaseSuspectCondition
  | releaseSuspectRemove
  | checkOut
  | cancelManifest
  | authorize
  | deny
  | move
  | queryZone
  | excursionClear
  | fireReset
  | configure
  | reset
  | unknownRequest
  | resetAnswerTimeout
  | keyTurn (on : Bool)
  | cycleMark (mark : Byte)
  | cycleTimerExpiry (readBack : Byte)
  | superframeEnd
  | peerAbsent (address : Fin 16)
  | alarmField (others : BitVec 33)
  | beaconReceived (slot : Fin 16) (frame : SlotFrame)
  | requestReceived (slot : Fin 16) (frame : SlotFrame)
  | peerMessageReceived (slot : Fin 16) (kind : PeerKind) (frame : SlotFrame)
  | ignoredMessage (slot : Fin 16) (kind : IgnoredKind) (frame : SlotFrame)
  | unknownKindMessage (slot : Fin 16) (kind : Byte) (frame : SlotFrame)
  | addressConflict (sign : ConflictSign)
  | slotStart
  | slotEnd (readBackSame accept refuse : Bool)
  | offer
  | take
  | decline
  | withdraw
  | arrived
  | offerWaitExpiry (cartridge : Ident)
  | transitLimitExpiry (cartridge : Ident)
  | inboundTransitExpiry (cartridge : Ident)
  | caseArrival
  | caseRemoval
  | closeKey
  | cancelKey
  | dockFrameSend
  | dockAnswerTimeout
  | malformedCaseFrame (bytes : List Byte)
  | awake
  | identity (caseId : BitVec 32) (badge : BitVec 24) (count : Word16) (intent : Byte) (intervals : List RawInterval)
  | scan (cartridge : Ident)
  | nothing
  | echo (count : Byte) (digest : Word16)
  | done (count : Word16)
  | wakingTimeout
  | identityTimeout
  | authTimeout
  | idleTimeout
  | refusedDisplayExpiry
  | pollRound
  | probeAnswer (bytes : List Byte)
  | probeAnswerTimeout
  | channelEvent (channel : Fin 8) (state : ChannelState)
  | manualCallOperation
  | manualCallRelease
  | holdOrIsolateChange (switch : Switch) (on : Bool)
  | doorChange (isOpen : Bool)
  | agentReadyChange (ready : Bool)
  | countdownExpiry
  | pulseEnd
  | soakExpiry
  | addressStrapChange (address : Fin 16)
  deriving DecidableEq, Repr

end Sys2Proof
end

