-- ==== Sys2Proof/Decode.lean ====
section
/-! DEFINITION. The reading of a table word. The block is no processor: no row of spec/opcode_table.json gives bits, so no word
spells a command (log 27). -/

namespace Sys2Proof

/-- The command that a word spells by the table's bits: none, since the table gives no row any bits (log 27). -/
def decodeTableWord (_nbits _w : Nat) : Option Instr := none

end Sys2Proof
end

