-- ==== Sys2Proof/Config.lean ====
section
/-! DEFINITION. The free values: what the spec leaves without a value, as constants with no body. Each is applied to
the draw counter `State.free`, or stands for one value that an implementation fixes. -/

namespace Sys2Proof.Config

/-- DESIGN CHOICE (log 8): the tag of an OFFER, TAKE, DECLINE, WITHDRAW or ARRIVED, which no rule gives. -/
opaque peerTag : Nat → BitVec 16

/-- DESIGN CHOICE (log 9): the request-kind byte of the answer to a REQUEST whose payload is empty and so has none. -/
opaque missingKindByte : Nat → BitVec 8

/-- DESIGN CHOICE (log 10): whether a part of a second remaining of a minimum-off time is reported as a whole one (R111). -/
opaque partSecondCounts : Nat → Bool

/-- DESIGN CHOICE (logs 11, 12): the choice among several items between which no rule chooses; it is read modulo their number. -/
opaque pick : Nat → Nat

/-- DESIGN CHOICE (log 13): the code of the arrival outcome REFUSED in a DOCK AND MANIFEST notice (R44), which no list numbers. -/
opaque refusedOutcomeCode : BitVec 8

end Sys2Proof.Config
end

