-- ==== Sys2Proof/Machine/Types.lean ====
section
/-! DEFINITION. The data the blocks hold: records, manifests, sessions, readings, sequence states, messages and notices. -/

namespace Sys2Proof.Machine

/-! ### Custody (chapters 1 and 2) -/

/-- A position: rack 0 to 255, slot 0 to 63 (R4). -/
structure Position where
  rack : Nat
  slot : Nat
  deriving DecidableEq, Repr

/-- The case field of a record in OUT or RETURNING (R2). -/
structure CaseField where
  caseId          : Nat
  departureCount  : Nat
  departureMinute : Nat
  deriving DecidableEq, Repr

/-- The peer field of a record in TRANSFERRING or INBOUND (R2): the other station and the sender's transfer number. -/
structure PeerField where
  station : Nat
  number  : Nat
  deriving DecidableEq, Repr

/-- The prior state kept by a record in TRANSFERRING, with the prior hold of a CONDITIONING one (R7). -/
inductive PriorState
  | shelved
  | conditioning (hold : Nat)
  deriving DecidableEq, Repr

/-- The restore field (R7). -/
structure Restore where
  state    : PriorState
  position : Option Position
  deriving DecidableEq, Repr

/-- The suspect reasons, in the order of R2. -/
inductive SuspectReason
  | exposure | countMismatch | custodyMismatch | unregistered | transitLost | transferInterrupted
  deriving DecidableEq, Repr

/-- The nine record states, each with the fields that R2 gives it, so that a record never holds a field its state does
not carry. -/
inductive RecState
  | shelved (position : Option Position)
  | reserved (position : Position) (manifest : Nat)
  | loading (position : Position) (manifest : Nat)
  | out (case : CaseField)
  | returning (case : CaseField)
  | conditioning (position : Option Position) (hold : Nat)
  | suspect (position : Option Position) (advised : Option Nat) (reason : SuspectReason)
  | transferring (peer : PeerField) (restore : Restore)
  | inbound (peer : PeerField) (carried : Option Nat)
  deriving DecidableEq, Repr

/-- A custody record (R2): the fields of every state beside those of its own. -/
structure Record where
  id          : Ident
  st          : RecState
  exposure    : Option Nat
  logAbsent   : Bool
  stateMinute : Nat
  deriving DecidableEq, Repr

/-- The two states of a manifest (R25). -/
inductive ManifestState
  | waiting
  | inSession
  deriving DecidableEq, Repr

/-- A manifest (R25); its number is its place in the table. `waiting` is the spec's OPEN. -/
structure Manifest where
  state    : ManifestState
  members  : List Ident
  lifetime : Nat
  deriving DecidableEq, Repr

/-! ### Dock (chapter 3) -/

/-- The session states (R42). -/
inductive SessionState
  | idle | waking | identifying | awaitingAuth | loading | sealing | committing
  deriving DecidableEq, Repr

/-- The two intents of a session. -/
inductive Intent
  | departing | returning
  deriving DecidableEq, Repr

/-- One kept interval of a case summary (R53). -/
structure Interval where
  minutes     : Nat
  rh          : Nat
  temperature : Int
  deriving DecidableEq, Repr

/-- The case identity an accepted IDENTITY gave (R53). -/
structure CaseIdentity where
  caseId  : Nat
  badge   : Nat
  count   : Nat
  intent  : Intent
  summary : List Interval
  deriving DecidableEq, Repr

/-- The two kinds of scan list entry (R58); a RECORD entry carries its custody-mismatch mark. -/
inductive ScanKind
  | record (custodyMismatch : Bool)
  | unregistered
  deriving DecidableEq, Repr

/-- A scan list entry (R58). -/
structure ScanEntry where
  id   : Ident
  kind : ScanKind
  deriving DecidableEq, Repr

/-- The reasons of a rejected scan, coded from 1 in this order (11.4). -/
inductive RejectReason
  | notOnManifest | malformed | duplicate | registerFull | listFull
  deriving DecidableEq, Repr

/-- The verdict a POLL carries (R59, 11.4). -/
inductive Verdict
  | none | accepted | rejected (reason : RejectReason) | held
  deriving DecidableEq, Repr

/-- The outcomes of a session, in the order of the outcomes table of 3.8. -/
inductive SessionOutcome
  | committed | handoverUnconfirmed | noCase | noIdentity | denied | authTimeout | idleTimeout | nothingLoaded
  | digestMismatch | cancelled | linkFault | fire | caseRemoved
  deriving DecidableEq, Repr

/-- The frames the dock sends (R47, 11.4). -/
inductive DockFrame
  | wake
  | poll (verdict : Verdict)
  | digest (count : Nat) (digest : Word16)
  | commit
  | abort (outcome : SessionOutcome)
  deriving DecidableEq, Repr

/-- A well-formed case answer by its layout (11.4); the checks of R52 on an IDENTITY are made when it is judged. -/
inductive CaseFrame
  | awake
  | identity (caseId : BitVec 32) (badge : BitVec 24) (count : Word16) (intent : Byte) (intervals : List RawInterval)
  | scan (cartridge : Ident)
  | nothing
  | echo (count : Byte) (digest : Word16)
  | done (count : Word16)
  deriving DecidableEq, Repr

/-- The outstanding frame with its sending time (R42). -/
structure Outstanding where
  frame  : DockFrame
  sentAt : Nat
  deriving DecidableEq, Repr

/-- The indicator (R46). -/
inductive Indicator
  | off | active | refused
  deriving DecidableEq, Repr

/-- What is taken at the commit point for the session's DOCK AND MANIFEST event (R58, R73). -/
structure CommitCounts where
  scanCount    : Nat
  departed     : Nat
  returned     : Nat
  conditioning : Nat
  shelved      : Nat
  suspect      : Nat
  deriving DecidableEq, Repr

/-! ### Climate (chapter 5) -/

/-- The three states of a probe record (R96), coded from 0 in this order (11.3). -/
inductive ProbeState
  | valid | stale | failed
  deriving DecidableEq, Repr

/-- An RH and a temperature, of one probe or of the zone. -/
structure Reading where
  rh          : Nat
  temperature : Int
  deriving DecidableEq, Repr

/-- A probe record (R96): its state, the last valid reading with the start time of the round that gave it, and whether
a valid reading has been taken since the last reset (R101). -/
structure ProbeRecord where
  state   : ProbeState
  reading : Option Reading
  stamp   : Nat
  heard   : Bool
  deriving DecidableEq, Repr

/-- An actuator output with the time-base millisecond at which it last went OFF; none counts as elapsed (R96, R106). -/
structure ClimateOutput where
  on    : Bool
  offAt : Option Nat
  deriving DecidableEq, Repr

/-! ### Fire (chapter 6) -/

/-- The group assignment of a channel (R115). -/
inductive Group
  | a | b | unused
  deriving DecidableEq, Repr

/-- The eight sequence states, in the order of R115. -/
inductive Seq
  | quiet | preAlert | alarm1 | confirmed | preDischarge | discharge | soak | resetWait
  deriving DecidableEq, Repr

/-- The causes of a FIRE STATE event, in the order of R129. -/
inductive FireCause
  | alert | alertCleared | alarm | manualCall | confirmation | held | released | countdownExpiry | pulseEnd | soakExpiry
  | fireReset
  deriving DecidableEq, Repr

/-- The sounder output (R133). -/
inductive Sounder
  | off | alert | evacuate
  deriving DecidableEq, Repr

/-! ### Transfers (chapter 7) -/

/-- The state of a transfer entry with the timer that goes with it (R143): the offer wait's end time, or not yet
started; the transit limit remaining in minutes. -/
inductive TransferState
  | offered (waitEnds : Option Nat)
  | taken (limit : Nat)
  | awaitingArrival (limit : Nat)
  deriving DecidableEq, Repr

/-- A transfer entry (R143). Its direction is that of its state: IN for AWAITING ARRIVAL, OUT for the others. -/
structure TransferEntry where
  id     : Ident
  peer   : Nat
  number : Nat
  state  : TransferState
  deriving DecidableEq, Repr

/-- The reasons of a DECLINE, coded from 0 in this order (11.1). -/
inductive DeclineReason
  | malformed | zoneAlarm | duplicate | registerFull | tableFull | busy
  deriving DecidableEq, Repr

/-- The body of a transfer message that this station sends. -/
inductive PeerBody
  | offer (id : Ident) (number : Nat) (hold exposure : Option Nat)
  | take (id : Ident) (number : Nat)
  | decline (id : Ident) (number : Nat) (reason : DeclineReason)
  | withdraw (id : Ident) (number : Nat)
  | arrived (id : Ident) (number : Nat)
  deriving DecidableEq, Repr

/-- An item of the peer output queue (R169). -/
structure PeerOut where
  dest : Nat
  body : PeerBody
  deriving DecidableEq, Repr

/-- An item of the peer input queue (R168): the kind, the sender, the destination it was addressed to and the payload. -/
structure PeerIn where
  kind    : PeerKind
  sender  : Nat
  dest    : Nat
  payload : List Byte
  deriving DecidableEq, Repr

/-- The two directions of a transfer (R143). -/
inductive Direction
  | out | in_
  deriving DecidableEq, Repr

/-- The outcomes of a transfer, in the order of the table of R160. -/
inductive TransferOutcome
  | delivered | declined | noAnswer | withdrawn | resolvedLate | takeNotDelivered | arrivalNotDelivered
  | cancelledBySender | abandoned
  deriving DecidableEq, Repr

/-! ### Requests (chapter 9) -/

/-- The fifteen request kinds, coded from 1 in the order of R178. -/
inductive RequestKind
  | enrol | retire | shelve | queryRecord | releaseSuspect | checkOut | cancelManifest | authorize | deny | move
  | queryZone | excursionClear | fireReset | configure | reset
  deriving DecidableEq, Repr

/-- The results, coded from 0 in the order of the table of 9.3. -/
inductive Result
  | done | malformed | unknownRequest | notConfigured | alreadyConfigured | notAuthorized | noSuchRecord | wrongState
  | registerFull | duplicate | zoneAlarm | excursion | noManifestSlot | nothingReserved | noSuchManifest | noSession
  | peerUnavailable | peerFull | transferTableFull | queueFull | sequenceRunning | inputsActive
  deriving DecidableEq, Repr

/-- An item of the request queue (R169): sender, tag and payload. -/
structure Request where
  sender  : Nat
  tag     : Word16
  payload : List Byte
  deriving DecidableEq, Repr

/-- An item of the answer queue (R169, 11.1): destination, tag, request-kind byte, result and content. -/
structure Answer where
  dest    : Nat
  tag     : Word16
  kind    : Byte
  result  : Result
  content : List Byte
  deriving DecidableEq, Repr

/-- The result of one entry of a CHECK-OUT (R28), coded from 0 in this order (11.3). -/
inductive EntryResult
  | reserved | noRecord | notShelved | repeated | malformed
  deriving DecidableEq, Repr

/-- The configuration record: one value for each item of R182. A notice level of none is OFF. -/
structure ConfigRecord where
  rhSet            : Nat
  rhBand           : Nat
  tempSet          : Nat
  tempBand         : Nat
  controlBand      : Nat
  probeCount       : Nat
  uncovered        : Nat
  divisor          : Nat
  baseHold         : Nat
  ceiling          : Nat
  exposureLimit    : Nat
  excursionLimit   : Nat
  groups           : List Group
  manualConfirms   : Bool
  preDischarge     : Nat
  soakTime         : Nat
  neighbours       : List Nat
  manifestLifetime : Nat
  authWait         : Nat
  offerWait        : Nat
  transitLimit     : Nat
  levels           : List (Option Nat)
  deriving DecidableEq, Repr

/-! ### Zone line (chapter 8) -/

/-- The presence of a peer (R172). -/
inductive Presence
  | unknown | present | absent
  deriving DecidableEq, Repr

/-- The content of a beacon (R171). -/
structure Beacon where
  configured     : Bool
  fire           : Seq
  inBand         : Bool
  registerCount  : Nat
  dockBusy       : Bool
  excursionLatch : Bool
  deriving DecidableEq, Repr

/-- One entry of the peer table (R172). -/
structure PeerEntry where
  presence  : Presence
  missed    : Nat
  heard     : Bool
  beacon    : Option Beacon
  alarm     : Bool
  confirmed : Bool
  neighbour : Bool
  deriving DecidableEq, Repr

/-- The outcome of a message sent (R166). -/
inductive SendOutcome
  | accepted | refused | unanswered
  deriving DecidableEq, Repr

/-- What this station drives in the acceptance field of a slot it heard (R166). -/
inductive Acceptance
  | accept | refuse | neither
  deriving DecidableEq, Repr

/-- What the own slot carries (R170). -/
inductive SlotItem
  | beacon (content : Beacon)
  | notice (source : Nat)
  | peer (message : PeerOut)
  | answer (answer : Answer)
  deriving DecidableEq, Repr

/-- A message being sent in the own slot: the item, the bytes on the line, and whether it has read back differently so far, which the
end of the slot reports (R174). -/
structure Sending where
  item     : SlotItem
  bytes    : List Byte
  conflict : Bool
  deriving DecidableEq, Repr

/-! ### Notices (chapter 10) -/

/-- Why a manifest ended without a courier (R31, R33). -/
inductive ManifestEnd
  | expired | cancelled
  deriving DecidableEq, Repr

/-- The causes of a RESTART (R188). -/
inductive ResetCause
  | resetInput | resetRequest
  deriving DecidableEq, Repr

/-- What the DOCK AND MANIFEST event of a session's end carries (R73). -/
structure SessionReport where
  outcome      : SessionOutcome
  session      : Nat
  intent       : Option Intent
  caseId       : Option Nat
  manifest     : Option Nat
  scanCount    : Nat
  departed     : Option Nat
  returned     : Option Nat
  conditioning : Option Nat
  shelved      : Option Nat
  suspect      : Option Nat
  reverted     : Option Nat
  deriving DecidableEq, Repr

/-- A notice event with the content its emitting rule lists, in the rule's order. -/
inductive Event
  | fireState (new previous : Seq) (cause : FireCause) (alarms faults : List Nat) (operated latch hold isolate : Bool)
      (doorOpen agentReady : Bool) (clock : Nat)
  | releaseOutcome (discharged doorOpen : Bool) (alarms : List Nat) (latch : Bool) (clock : Nat)
  | detectorFault (channel : Nat) (group : Group) (state : ChannelState) (inService : Nat)
  | neighbourAlarm (flag : Bool) (holders : List Nat) (clock : Nat)
  | peerPresence (address : Nat) (presence : Presence) (beacon : Option (Bool × Seq))
  | addressConflict (address cycle : Nat) (kind : Option Byte)
  | authorizationWanted (session caseId badge count : Nat) (intent : Intent) (intervals minutes : Option Nat)
  | manifestEnded (number : Nat) (cause : ManifestEnd) (members : Nat)
  | arrivalRefused
  | sessionEnded (report : SessionReport)
  | suspectEntry (id : Ident) (reason : SuspectReason) (advised : Option Nat)
  | conditioningComplete (id : Ident) (position : Option Position) (exposure : Option Nat) (minute : Nat)
  | transferOutcome (id : Ident) (direction : Direction) (peer number : Nat) (outcome : TransferOutcome)
      (reason : Option Byte) (minute : Nat)
  | transitOverdue (id : Ident) (destination number minute : Nat)
  | zoneBand (inBand : Bool) (value : Option Reading)
  | probe (number : Nat) (state : ProbeState) (reading : Reading)
  | spreadHigh (spread highest lowest : Nat)
  | excursion (account minute : Nat)
  | restart (cause : ResetCause) (interrupted deleted clock : Nat)
  deriving DecidableEq, Repr

/-- A pending notice (R185). -/
structure PendingNotice where
  content : Event
  repeats : Nat
  time    : Nat
  sending : Bool
  inSlot  : Nat
  deriving DecidableEq, Repr

end Sys2Proof.Machine
end

