-- ==== Sys2Proof/Machine/Params.lean ====
section
/-! DEFINITION. The numbers the spec fixes: capacities, durations, saturations and the configuration defaults. -/

namespace Sys2Proof.Machine

/-! ### Capacities -/

/-- The most records and unregistered entries together (R11). -/
def registerCapacity : Nat := 1024

/-- The most entries of a scan list, of a manifest and of a CHECK-OUT (R25, R27, R58). -/
def listCapacity : Nat := 32

/-- The depth of the request, answer and peer input queues (R169). -/
def queueDepth : Nat := 8

/-- The depth of the peer output queue (R169). -/
def peerOutDepth : Nat := 16

/-- The most entries of the transfer table (R143). -/
def transferCapacity : Nat := 8

/-! ### Saturations -/

/-- The top of the zone clock (R13). -/
def clockTop : Nat := 4294967295

/-- The top of exposures and of the excursion account (R83, R108). -/
def pointsTop : Nat := 16777215

/-- A sum or product of points held at the top of its range (R80, R83, R108). -/
def saturate (n : Nat) : Nat := min n pointsTop

/-! ### Durations, in milliseconds of the time base -/

/-- How long a case, and the dock's exchange with it, has to answer (R47). -/
def exchangeLimit : Nat := 500

/-- How long WAKING lasts without an AWAKE (R51). -/
def wakingLimit : Nat := 2000

/-- How long IDENTIFYING lasts without an IDENTITY (R52). -/
def identityLimit : Nat := 5000

/-- How long LOADING lasts without a SCAN (R63). -/
def idleLimit : Nat := 300000

/-- How long the indicator shows REFUSED (R46). -/
def refusedDisplay : Nat := 5000

/-- The time from the start of a poll round to the start of the next (R98). -/
def roundTime : Nat := 2000

/-- How long a probe has to answer (R98). -/
def probeLimit : Nat := 200

/-- The minimum-off time of a climate output (R106). -/
def minimumOff : Nat := 120000

/-- The length of the release pulse (R125). -/
def pulseLength : Nat := 10000

/-- How long a warm reset waits for its DONE answer (R184). -/
def resetWaitLimit : Nat := 5000

/-- The cycle timer's limit without a mark (R164). -/
def cycleLimit : Nat := 102

/-- The sending interval of the frames of a session state (R47); SEALING and COMMITTING have none. -/
def sendInterval : SessionState → Nat
  | .idle => 0
  | .waking => 500
  | .identifying => 500
  | .awaitingAuth => 500
  | .loading => 250
  | .sealing => 0
  | .committing => 0

/-! ### Durations, in seconds -/

/-- The spacing of poll rounds on the line of their start times (R98, R100). -/
def roundSpacing : Nat := 2

/-- The age beyond which a held reading is discarded at a miss (R100). -/
def staleLimit : Nat := 30

/-- The running seconds of one conditioning minute (R88). -/
def rolloverSeconds : Nat := 60

/-! ### Thresholds -/

/-- The RH spread above which the spread is high (R103). -/
def spreadLimit : Nat := 80

/-- The consecutive frame faults that end a session (R49). -/
def faultLimit : Nat := 3

/-- The missed superframes that make a peer ABSENT (R172). -/
def missedLimit : Nat := 3

/-! ### Defaults -/

/-- The group assignment before configuration and of an absent item (R115, R182). -/
def defaultGroups : List Group := [.a, .a, .a, .a, .b, .b, .b, .b]

/-- One row of the source table of R185: the least and greatest level, whether OFF is allowed, the default level, and
whether the source records before configuration. -/
structure SourceRow where
  low    : Nat
  high   : Nat
  off    : Bool
  dflt   : Nat
  always : Bool
  deriving DecidableEq, Repr

/-- The sixteen sources (R185). -/
def sourceTable : List SourceRow :=
  [ ⟨0, 0, false, 0, true⟩,   -- FIRE STATE
    ⟨0, 0, false, 0, true⟩,   -- RELEASE OUTCOME
    ⟨0, 1, true, 1, true⟩,    -- DETECTOR FAULT
    ⟨0, 2, true, 1, false⟩,   -- NEIGHBOUR ALARM
    ⟨1, 3, true, 2, false⟩,   -- PEER PRESENCE
    ⟨1, 2, true, 1, false⟩,   -- ADDRESS CONFLICT
    ⟨1, 2, false, 1, false⟩,  -- AUTHORIZATION WANTED
    ⟨1, 3, true, 2, false⟩,   -- DOCK AND MANIFEST
    ⟨1, 3, true, 2, false⟩,   -- SUSPECT ENTRY
    ⟨1, 3, true, 3, false⟩,   -- CONDITIONING COMPLETE
    ⟨1, 3, true, 2, false⟩,   -- TRANSFER OUTCOME
    ⟨1, 3, true, 1, false⟩,   -- TRANSIT OVERDUE
    ⟨1, 3, true, 2, false⟩,   -- ZONE BAND
    ⟨1, 3, true, 3, false⟩,   -- PROBE
    ⟨1, 3, true, 1, false⟩,   -- EXCURSION
    ⟨1, 1, false, 1, true⟩ ]  -- RESTART

/-- The default level of every source (R185). -/
def defaultLevels : List (Option Nat) := sourceTable.map fun row => some row.dflt

/-- The configuration of absent items (R182), and the values the fire unit runs on before configuration (R115). -/
def defaultConfig : ConfigRecord where
  rhSet := 400
  rhBand := 50
  tempSet := 180
  tempBand := 30
  controlBand := 20
  probeCount := 4
  uncovered := 100
  divisor := 128
  baseHold := 60
  ceiling := 10080
  exposureLimit := 500000
  excursionLimit := 100000
  groups := defaultGroups
  manualConfirms := true
  preDischarge := 30
  soakTime := 600
  neighbours := []
  manifestLifetime := 240
  authWait := 120
  offerWait := 3
  transitLimit := 30
  levels := defaultLevels

end Sys2Proof.Machine
end

