-- ==== Sys2Proof/Machine/Blocks.lean ====
section
/-! DEFINITION. The nine blocks and the pins, as plain data, and the value each block takes at cold start. -/

namespace Sys2Proof.Machine

/-- The input pins as the outside drives them (11.5). -/
structure Pins where
  channels     : List ChannelState
  callOperated : Bool
  holdOn       : Bool
  isolateOn    : Bool
  doorOpen     : Bool
  agentReady   : Bool
  keyOn        : Bool
  casePresent  : Bool
  straps       : Nat
  deriving DecidableEq, Repr

/-- The request unit (R176): the configuration record, whose presence is the configured state, the gateway address, and
the end of the 5 s that a taken RESET waits for its answer to be sent (R184). -/
structure RequestUnit where
  config    : Option ConfigRecord
  gateway   : Option Nat
  resetWait : Option Nat
  deriving DecidableEq, Repr

/-- The custody unit: the register sorted by identifier (R2, R10), the four manifest entries (R25), the zone clock
(R13), and whether a minute event is announced and not yet taken (R14). -/
structure CustodyUnit where
  register  : List Record
  manifests : List (Option Manifest)
  zoneClock : Nat
  minuteDue : Bool
  deriving DecidableEq, Repr

/-- The dock unit's session context (R42), the counts taken at the commit point (R73), and the frame last sent. -/
structure DockUnit where
  session      : SessionState
  number       : Nat
  intent       : Option Intent
  identity     : Option CaseIdentity
  manifest     : Option Nat
  scans        : List ScanEntry
  verdict      : Verdict
  stateTimer   : Option Nat
  authTimer    : Option Nat
  idleTimer    : Option Nat
  faults       : Nat
  outstanding  : Option Outstanding
  pendingAbort : Option SessionOutcome
  indicator    : Indicator
  displayTimer : Option Nat
  commit       : Option CommitCounts
  lastFrame    : Option DockFrame
  lastSentAt   : Option Nat
  deriving DecidableEq, Repr

/-- The conditioning unit (R76). -/
structure ConditioningUnit where
  accumulator : Nat
  deriving DecidableEq, Repr

/-- A poll round in progress (R98): the probe being asked, when it was asked, and the events held to the round's end. -/
structure PollRound where
  asked   : Nat
  askedAt : Nat
  events  : List Event
  deriving DecidableEq, Repr

/-- The climate unit (R96): the start time of the latest round in seconds on the rounds' own line, two to a round; the round timer as
the time-base millisecond at which the next round starts; and the probes whose latest exchange ended with no answer taken, so that an
answer from one comes late (R98, R114, log 35). -/
structure ClimateUnit where
  probes      : List ProbeRecord
  roundStart  : Nat
  nextRound   : Nat
  late        : List Nat
  round       : Option PollRound
  zone        : Option Reading
  spreadHigh  : Bool
  inBand      : Bool
  humidify    : ClimateOutput
  dehumidify  : ClimateOutput
  account     : Nat
  latch       : Bool
  deriving DecidableEq, Repr

/-- The fire unit (R115); its timers hold the time-base millisecond at which they end. -/
structure FireUnit where
  channels       : List ChannelState
  callOperated   : Bool
  callLatch      : Bool
  holdOn         : Bool
  isolateOn      : Bool
  doorOpen       : Bool
  agentReady     : Bool
  seq            : Seq
  countdown      : Option Nat
  pulse          : Option Nat
  soak           : Option Nat
  generalSeen    : Bool
  neighbourAlert : Bool
  sounder        : Sounder
  damperClosed   : Bool
  release        : Bool
  deriving DecidableEq, Repr

/-- The transfer unit (R143): its table is kept sorted by identifier. -/
structure TransferUnit where
  entries : List TransferEntry
  number  : Nat
  deriving DecidableEq, Repr

/-- The line unit (chapter 8), with the bits it drove last as outputs. -/
structure LineUnit where
  address        : Nat
  aligned        : Bool
  cycle          : Nat
  cycleStart     : Nat
  superframeDue  : Bool
  requests       : List Request
  answers        : List Answer
  peerIn         : List PeerIn
  peerOut        : List PeerOut
  peers          : List PeerEntry
  sending        : Option Sending
  slotUsed       : Bool
  acceptance     : Acceptance
  alarmDriven    : BitVec 33
  markSent       : Option Byte
  deriving DecidableEq, Repr

/-- The notice unit (R185): at most one pending notice per source. -/
structure NoticeUnit where
  pending : List (Option PendingNotice)
  deriving DecidableEq, Repr

/-! ### Cold-start values -/

/-- The request unit after cold start (R176). -/
def coldRequest : RequestUnit := ⟨none, none, none⟩

/-- The custody unit after cold start (R13, R24, R40). -/
def coldCustody : CustodyUnit := ⟨[], [none, none, none, none], 0, false⟩

/-- The session context in IDLE, with the session number it keeps (R42). -/
def idleDock (number : Nat) : DockUnit where
  session := .idle
  number := number
  intent := none
  identity := none
  manifest := none
  scans := []
  verdict := .none
  stateTimer := none
  authTimer := none
  idleTimer := none
  faults := 0
  outstanding := none
  pendingAbort := none
  indicator := .off
  displayTimer := none
  commit := none
  lastFrame := none
  lastSentAt := none

/-- A probe record after a reset (R96, R114). -/
def coldProbe : ProbeRecord := ⟨.failed, none, 0, false⟩

/-- The climate unit after cold start (R96). -/
def coldClimate : ClimateUnit where
  probes := [coldProbe, coldProbe, coldProbe, coldProbe]
  roundStart := 0
  nextRound := 0
  late := []
  round := none
  zone := none
  spreadHigh := false
  inBand := false
  humidify := ⟨false, none⟩
  dehumidify := ⟨false, none⟩
  account := 0
  latch := false

/-- The fire unit at a cold start before its input survey (R115): the inputs as they stand on the pins, the sequence
QUIET. -/
def coldFire (p : Pins) : FireUnit where
  channels := p.channels
  callOperated := p.callOperated
  callLatch := false
  holdOn := p.holdOn
  isolateOn := p.isolateOn
  doorOpen := p.doorOpen
  agentReady := p.agentReady
  seq := .quiet
  countdown := none
  pulse := none
  soak := none
  generalSeen := false
  neighbourAlert := false
  sounder := .off
  damperClosed := false
  release := false

/-- A peer table entry after a reset (R172), with the neighbour flag it keeps over a warm reset. -/
def freshPeer (neighbour : Bool) : PeerEntry := ⟨.unknown, 0, false, none, false, false, neighbour⟩

/-- The line unit after a reset (R175) that ends at time-base millisecond `now`, with the address read from the straps
(R162) and the neighbour flags given. -/
def freshLine (address now : Nat) (neighbours : List Bool) : LineUnit where
  address := address
  aligned := false
  cycle := 0
  cycleStart := now
  superframeDue := false
  requests := []
  answers := []
  peerIn := []
  peerOut := []
  peers := neighbours.map freshPeer
  sending := none
  slotUsed := false
  acceptance := .neither
  alarmDriven := 0
  markSent := none

/-- The notice unit with nothing pending (R188). -/
def emptyNotices : NoticeUnit := ⟨List.replicate 16 none⟩

/-- The pins as the model takes them at power-up: a quiet zone, no key, no case, straps 0. DESIGN CHOICE (log 6). -/
def quietPins : Pins where
  channels := List.replicate 8 .normal
  callOperated := false
  holdOn := false
  isolateOn := false
  doorOpen := false
  agentReady := true
  keyOn := false
  casePresent := false
  straps := 0

end Sys2Proof.Machine
end

