-- ==== Sys2Proof/Machine/State.lean ====
section
/-! DEFINITION. The whole state of the block, the reasons a step can stop, and the state after reset. -/

namespace Sys2Proof.Machine

/-- The state of the controller: the pins, the nine blocks, the time base in milliseconds, the model's own counter of
free values drawn, and the commands that are waiting, first in first out. -/
structure State where
  pins         : Pins
  request      : RequestUnit
  custody      : CustodyUnit
  dock         : DockUnit
  conditioning : ConditioningUnit
  climate      : ClimateUnit
  fire         : FireUnit
  transfer     : TransferUnit
  line         : LineUnit
  notices      : NoticeUnit
  now          : Nat
  free         : Nat
  pending      : List Instr
  deriving DecidableEq, Repr

/-- The faults of the block. The spec names no event that stops the controller, so there is none: nothing raises one,
and no run of the model ends in one (safe: nothing is cut short). -/
inductive Fault
  deriving DecidableEq, Repr

/-- The refusals of the model. -/
inductive Refusal
  /-- A command that has no meaning yet; raised by an arm of `exec` alone, and by none of them now. Safe: a run that
  meets it stops, and nothing is claimed of what would follow. -/
  | notModelled (mnemonic : String)
  deriving DecidableEq, Repr

/-- The state after cold start on given pins at time-base millisecond `now`, before the fire unit's input survey. Every
block is at its cold-start value (R24, R40, R42, R76, R96, R115, R143, R172, R175, R176, R188). -/
def State.cold (pins : Pins) (now free : Nat) (pending : List Instr) : State where
  pins := pins
  request := coldRequest
  custody := coldCustody
  dock := idleDock 0
  conditioning := ⟨0⟩
  climate := { coldClimate with nextRound := now }
  fire := coldFire pins
  transfer := ⟨[], 0⟩
  line := freshLine pins.straps now (List.replicate 16 false)
  notices := emptyNotices
  now := now
  free := free
  pending := pending

/-- The machine right after reset: the cold start of a station whose inputs are quiet (log 6), so that the input survey
(R139) finds nothing to act on, with no command waiting. -/
def State.reset : State := State.cold quietPins 0 0 []

/-! ### Updates: one block at a time -/

/-- The state with other pins. -/
def State.withPins (s : State) (b : Pins) : State := { s with pins := b }
/-- The state with another request unit. -/
def State.withRequest (s : State) (b : RequestUnit) : State := { s with request := b }
/-- The state with another custody unit. -/
def State.withCustody (s : State) (b : CustodyUnit) : State := { s with custody := b }
/-- The state with another dock unit. -/
def State.withDock (s : State) (b : DockUnit) : State := { s with dock := b }
/-- The state with another conditioning unit. -/
def State.withConditioning (s : State) (b : ConditioningUnit) : State := { s with conditioning := b }
/-- The state with another climate unit. -/
def State.withClimate (s : State) (b : ClimateUnit) : State := { s with climate := b }
/-- The state with another fire unit. -/
def State.withFire (s : State) (b : FireUnit) : State := { s with fire := b }
/-- The state with another transfer unit. -/
def State.withTransfer (s : State) (b : TransferUnit) : State := { s with transfer := b }
/-- The state with another line unit. -/
def State.withLine (s : State) (b : LineUnit) : State := { s with line := b }
/-- The state with another notice unit. -/
def State.withNotices (s : State) (b : NoticeUnit) : State := { s with notices := b }
/-- The state at another time-base millisecond. -/
def State.withNow (s : State) (n : Nat) : State := { s with now := n }
/-- The state with another count of free values drawn. -/
def State.withFree (s : State) (n : Nat) : State := { s with free := n }
/-- The state with another queue of waiting commands. -/
def State.withPending (s : State) (q : List Instr) : State := { s with pending := q }

end Sys2Proof.Machine
end

