-- ==== Sys2Proof/Machine/Wire.lean ====
section
/-! DEFINITION. Bytes on the wires: byte order, the cyclic check of R65, the order of identifiers, and the codes of the
names (chapter 11). -/

namespace Sys2Proof.Machine

/-! ### Byte order: the most significant byte first (chapter 11) -/

/-- The number as that many bytes. -/
def toBytes : (count : Nat) → Nat → List Byte
  | 0, _ => []
  | count + 1, n => BitVec.ofNat 8 (n >>> (8 * count)) :: toBytes count n

/-- The number that the bytes spell. -/
def ofBytes (bytes : List Byte) : Nat := bytes.foldl (fun n b => 256 * n + b.toNat) 0

/-- A signed quantity as two bytes, two's complement. -/
def signedBytes (t : Int) : List Byte := toBytes 2 (BitVec.ofInt 16 t).toNat

/-- The signed quantity that the bytes spell in two's complement, over as many bits as they hold. -/
def signedOf (bytes : List Byte) : Int := (BitVec.ofNat (8 * bytes.length) (ofBytes bytes)).toInt

/-- The byte at a place, as a number. -/
def byteAt (bytes : List Byte) (i : Nat) : Nat := (bytes.getD i 0).toNat

/-- The bytes from a place, that many. -/
def slice (bytes : List Byte) (start count : Nat) : List Byte := (bytes.drop start).take count

/-- A flag as a byte, 1 when it holds. -/
def flagByte (b : Bool) : Byte := if b then 1 else 0

/-! ### The 16-bit cyclic check of R65 -/

/-- One bit fed to the check register (R65). -/
def crcBit (register : Word16) (bit : Bool) : Word16 :=
  if register.msb != bit then (register <<< 1) ^^^ 4129#16 else register <<< 1

/-- One byte fed to the check register, most significant bit first (R65). -/
def crcByte (register : Word16) (b : Byte) : Word16 :=
  [7, 6, 5, 4, 3, 2, 1, 0].foldl (fun r i => crcBit r (b.getLsbD i)) register

/-- The cyclic check of a run of bytes: the register starts at all ones and no final inversion is applied (R65). -/
def crc (bytes : List Byte) : Word16 := bytes.foldl crcByte 65535#16

/-! ### Identifiers (R1) -/

/-- A character of an identifier: a digit 48 to 57 or a capital letter 65 to 90 (R1, R65). -/
def identChar (b : Byte) : Bool :=
  (48 ≤ b.toNat && b.toNat ≤ 57) || (65 ≤ b.toNat && b.toNat ≤ 90)

/-- An identifier is well formed when it has ten characters, each a digit or a capital letter (R1). -/
def identOk (id : Ident) : Bool := id.length == 10 && id.all identChar

/-- The order of identifiers: character by character from the first, characters by their values (R89). -/
def identLt : Ident → Ident → Bool
  | _, [] => false
  | [], _ :: _ => true
  | a :: as, b :: bs => if a = b then identLt as bs else decide (a.toNat < b.toNat)

/-! ### Codes -/

/-- The kind byte of a transfer message (11.1). -/
def peerKindByte : PeerKind → Byte
  | .offer => 5
  | .take => 6
  | .decline => 7
  | .withdraw => 8
  | .arrived => 9

/-- The transfer message kind of a kind byte (11.1). -/
def peerKindOf (kind : Byte) : Option PeerKind :=
  match kind.toNat with
  | 5 => some .offer
  | 6 => some .take
  | 7 => some .decline
  | 8 => some .withdraw
  | 9 => some .arrived
  | _ => none

/-- The kind byte of an ignored message (11.1). -/
def ignoredKindByte : IgnoredKind → Byte
  | .answer => 3
  | .notice => 4

/-- The code of a sequence state: QUIET 0 to RESET-WAIT 7 (11.1). -/
def seqCode : Seq → Nat
  | .quiet => 0
  | .preAlert => 1
  | .alarm1 => 2
  | .confirmed => 3
  | .preDischarge => 4
  | .discharge => 5
  | .soak => 6
  | .resetWait => 7

/-- The sequence state of a code (11.1). -/
def seqOfCode : Nat → Option Seq
  | 0 => some .quiet
  | 1 => some .preAlert
  | 2 => some .alarm1
  | 3 => some .confirmed
  | 4 => some .preDischarge
  | 5 => some .discharge
  | 6 => some .soak
  | 7 => some .resetWait
  | _ => none

/-- The code of a request kind: ENROL 1 to RESET 15 (11.1). -/
def requestKindCode : RequestKind → Nat
  | .enrol => 1
  | .retire => 2
  | .shelve => 3
  | .queryRecord => 4
  | .releaseSuspect => 5
  | .checkOut => 6
  | .cancelManifest => 7
  | .authorize => 8
  | .deny => 9
  | .move => 10
  | .queryZone => 11
  | .excursionClear => 12
  | .fireReset => 13
  | .configure => 14
  | .reset => 15

/-- The request kind of a code (11.1). -/
def requestKindOfCode : Nat → Option RequestKind
  | 1 => some .enrol
  | 2 => some .retire
  | 3 => some .shelve
  | 4 => some .queryRecord
  | 5 => some .releaseSuspect
  | 6 => some .checkOut
  | 7 => some .cancelManifest
  | 8 => some .authorize
  | 9 => some .deny
  | 10 => some .move
  | 11 => some .queryZone
  | 12 => some .excursionClear
  | 13 => some .fireReset
  | 14 => some .configure
  | 15 => some .reset
  | _ => none

/-- The code of a result: DONE 0 to INPUTS ACTIVE 21 (11.1). -/
def resultCode : Result → Nat
  | .done => 0
  | .malformed => 1
  | .unknownRequest => 2
  | .notConfigured => 3
  | .alreadyConfigured => 4
  | .notAuthorized => 5
  | .noSuchRecord => 6
  | .wrongState => 7
  | .registerFull => 8
  | .duplicate => 9
  | .zoneAlarm => 10
  | .excursion => 11
  | .noManifestSlot => 12
  | .nothingReserved => 13
  | .noSuchManifest => 14
  | .noSession => 15
  | .peerUnavailable => 16
  | .peerFull => 17
  | .transferTableFull => 18
  | .queueFull => 19
  | .sequenceRunning => 20
  | .inputsActive => 21

/-- The code of an entry result (11.3). -/
def entryResultCode : EntryResult → Nat
  | .reserved => 0
  | .noRecord => 1
  | .notShelved => 2
  | .repeated => 3
  | .malformed => 4

/-- The code of a DECLINE reason (11.1). -/
def declineCode : DeclineReason → Nat
  | .malformed => 0
  | .zoneAlarm => 1
  | .duplicate => 2
  | .registerFull => 3
  | .tableFull => 4
  | .busy => 5

/-- The code of a suspect reason: EXPOSURE 0 to TRANSFER INTERRUPTED 5 (11.3). -/
def suspectCode : SuspectReason → Nat
  | .exposure => 0
  | .countMismatch => 1
  | .custodyMismatch => 2
  | .unregistered => 3
  | .transitLost => 4
  | .transferInterrupted => 5

/-- The code of a reject reason (11.4). -/
def rejectCode : RejectReason → Nat
  | .notOnManifest => 1
  | .malformed => 2
  | .duplicate => 3
  | .registerFull => 4
  | .listFull => 5

/-- The place of a session outcome in the table of 3.8, counted from 0; an ABORT frame counts it from 1 (11.4). -/
def outcomeIndex : SessionOutcome → Nat
  | .committed => 0
  | .handoverUnconfirmed => 1
  | .noCase => 2
  | .noIdentity => 3
  | .denied => 4
  | .authTimeout => 5
  | .idleTimeout => 6
  | .nothingLoaded => 7
  | .digestMismatch => 8
  | .cancelled => 9
  | .linkFault => 10
  | .fire => 11
  | .caseRemoved => 12

/-- The code of a probe state: VALID 0, STALE 1, FAILED 2 (11.3). In a PROBE notice too. DESIGN CHOICE (R101, log 43). -/
def probeStateCode : ProbeState → Nat
  | .valid => 0
  | .stale => 1
  | .failed => 2

/-- The code of a channel state in a notice, in the order of R115. DESIGN CHOICE (R117, log 43). -/
def channelStateCode : ChannelState → Nat
  | .normal => 0
  | .alert => 1
  | .alarm => 2
  | .fault => 3

/-- The code of a group: A 0, B 1, UNUSED 2 (R190). In a DETECTOR FAULT notice too. DESIGN CHOICE (R117, log 43). -/
def groupCode : Group → Nat
  | .a => 0
  | .b => 1
  | .unused => 2

/-- The code of a cause of FIRE STATE, in the order of R129. -/
def fireCauseCode : FireCause → Nat
  | .alert => 0
  | .alertCleared => 1
  | .alarm => 2
  | .manualCall => 3
  | .confirmation => 4
  | .held => 5
  | .released => 6
  | .countdownExpiry => 7
  | .pulseEnd => 8
  | .soakExpiry => 9
  | .fireReset => 10

/-- The code of a presence in a notice, in the order of R172. DESIGN CHOICE (R172, log 43). -/
def presenceCode : Presence → Nat
  | .unknown => 0
  | .present => 1
  | .absent => 2

/-- The code of an intent in a notice: DEPART 0, RETURN 1, in the order of R42, where 11.4 has 1 and 2. DESIGN CHOICE (R54, R73, log 43). -/
def intentCode : Intent → Nat
  | .departing => 0
  | .returning => 1

/-- The code of a transfer outcome, in the order of R160. -/
def transferOutcomeCode : TransferOutcome → Nat
  | .delivered => 0
  | .declined => 1
  | .noAnswer => 2
  | .withdrawn => 3
  | .resolvedLate => 4
  | .takeNotDelivered => 5
  | .arrivalNotDelivered => 6
  | .cancelledBySender => 7
  | .abandoned => 8

end Sys2Proof.Machine
end

