-- ==== Sys2Proof/Machine/Operands.lean ====
section
/-! DEFINITION. The layouts of chapter 11, read and written: marks, slot messages, beacons, transfer messages, request
fields, dock and case frames, probe answers, notice content and the record answer. -/

namespace Sys2Proof.Machine

/-! ### Marks and slot messages (11.1, R189) -/

/-- The number of a well-formed mark: its high four bits are the complement of its low four, which give 0 to 9 (R189). -/
def markNumber (mark : Byte) : Option Nat :=
  let low := mark.toNat % 16
  if mark.toNat / 16 = 15 - low ∧ low ≤ 9 then some low else none

/-- The mark byte that carries a cycle number (11.1). -/
def markByte (number : Nat) : Byte := BitVec.ofNat 8 ((15 - number) * 16 + number)

/-- The bytes of a slot message from its kind to the end of its payload (11.1). -/
def messageBody (kind dest : Byte) (tag length : Word16) (payload : List Byte) : List Byte :=
  kind :: dest :: (toBytes 2 tag.toNat ++ toBytes 2 length.toNat ++ payload)

/-- A slot message as sent: header, payload and check (11.1). -/
def messageBytes (kind dest : Nat) (tag : Word16) (payload : List Byte) : List Byte :=
  let body := messageBody (BitVec.ofNat 8 kind) (BitVec.ofNat 8 dest) tag (BitVec.ofNat 16 payload.length) payload
  body ++ toBytes 2 (crc body).toNat

/-- The content of a beacon payload: exactly seven bytes with every value in its range (R189). -/
def beaconOf (p : List Byte) : Option Beacon :=
  if p.length = 7 ∧ byteAt p 0 ≤ 1 ∧ byteAt p 2 ≤ 1 ∧ ofBytes (slice p 3 2) ≤ registerCapacity ∧ byteAt p 5 ≤ 1 ∧
      byteAt p 6 ≤ 1 then
    (seqOfCode (byteAt p 1)).map fun fire =>
      ⟨byteAt p 0 == 1, fire, byteAt p 2 == 1, ofBytes (slice p 3 2), byteAt p 5 == 1, byteAt p 6 == 1⟩
  else none

/-- A beacon's payload (11.1). -/
def beaconBytes (b : Beacon) : List Byte :=
  [flagByte b.configured, BitVec.ofNat 8 (seqCode b.fire), flagByte b.inBand] ++ toBytes 2 b.registerCount ++
    [flagByte b.dockBusy, flagByte b.excursionLatch]

/-- The destination byte of NEIGHBOURS (11.1). -/
def destNeighbours : Nat := 16

/-- The destination byte of ALL (11.1). -/
def destAll : Nat := 17

/-- A slot message of a kind is well formed when its destination is 0 to 17, its length 400 or less, exactly that many
payload bytes follow, the check matches, and a BEACON has a beacon's payload (R189). -/
def frameOk (kind : Byte) (f : SlotFrame) : Bool :=
  f.dest.toNat ≤ destAll && f.length.toNat ≤ 400 && f.payload.length == f.length.toNat &&
    f.check == crc (messageBody kind f.dest f.tag f.length f.payload) && (kind != 1 || (beaconOf f.payload).isSome)

/-! ### Transfer messages (11.1) -/

/-- The whole layout of an OFFER as taken: identifier, transfer number, presence byte, hold and exposure. -/
structure OfferFields where
  id       : Ident
  number   : Nat
  presence : Nat
  hold     : Nat
  exposure : Nat
  deriving DecidableEq, Repr

/-- An OFFER's fields, when its layout of 17 bytes is whole. -/
def offerOf (p : List Byte) : Option OfferFields :=
  if p.length = 17 then
    some ⟨slice p 0 10, byteAt p 10, byteAt p 11, ofBytes (slice p 12 2), ofBytes (slice p 14 3)⟩
  else none

/-- The identifier and transfer number of a TAKE, WITHDRAW or ARRIVED, when its layout of 11 bytes is whole and the
identifier well formed (R145). -/
def transferOf (p : List Byte) : Option (Ident × Nat) :=
  if p.length = 11 ∧ identOk (slice p 0 10) then some (slice p 0 10, byteAt p 10) else none

/-- The identifier, transfer number and reason byte of a DECLINE, when its layout of 12 bytes is whole and the
identifier well formed (R145). -/
def declineOf (p : List Byte) : Option (Ident × Nat × Byte) :=
  if p.length = 12 ∧ identOk (slice p 0 10) then some (slice p 0 10, byteAt p 10, p.getD 11 0) else none

/-- The identifier of a transfer message sent. -/
def PeerBody.id : PeerBody → Ident
  | .offer id _ _ _ => id
  | .take id _ => id
  | .decline id _ _ => id
  | .withdraw id _ => id
  | .arrived id _ => id

/-- The transfer number of a transfer message sent. -/
def PeerBody.number : PeerBody → Nat
  | .offer _ n _ _ => n
  | .take _ n => n
  | .decline _ n _ => n
  | .withdraw _ n => n
  | .arrived _ n => n

/-- The kind byte of a transfer message sent (11.1). -/
def PeerBody.kind : PeerBody → Nat
  | .offer _ _ _ _ => 5
  | .take _ _ => 6
  | .decline _ _ _ => 7
  | .withdraw _ _ => 8
  | .arrived _ _ => 9

/-- The payload of a transfer message sent (11.1). -/
def PeerBody.bytes : PeerBody → List Byte
  | .offer id n hold exposure =>
      id ++ [BitVec.ofNat 8 n, BitVec.ofNat 8 ((if hold.isSome then 1 else 0) + (if exposure.isSome then 2 else 0))] ++
        toBytes 2 (hold.getD 0) ++ toBytes 3 (exposure.getD 0)
  | .take id n => id ++ [BitVec.ofNat 8 n]
  | .decline id n reason => id ++ [BitVec.ofNat 8 n, BitVec.ofNat 8 (declineCode reason)]
  | .withdraw id n => id ++ [BitVec.ofNat 8 n]
  | .arrived id n => id ++ [BitVec.ofNat 8 n]

/-! ### Requests (11.1, 11.2) -/

/-- The kind of a REQUEST payload; none when there is no kind byte or it names none of the fifteen kinds (R178). -/
def requestKindOf (payload : List Byte) : Option RequestKind :=
  match payload with
  | [] => none
  | b :: _ => requestKindOfCode b.toNat

/-- The request-kind byte that an answer repeats; the free value given where the payload has none (log 9). -/
def kindByteOf (missing : Byte) (payload : List Byte) : Byte := payload.headD missing

/-- The request's fields after its kind byte. -/
def requestFields (payload : List Byte) : List Byte := payload.drop 1

/-- The chunks of a run of bytes, each of that many bytes. -/
def chunks (size : Nat) : (count : Nat) → List Byte → List (List Byte)
  | 0, _ => []
  | count + 1, bytes => bytes.take size :: chunks size count (bytes.drop size)

/-- The item numbers of a CONFIGURE, which its whole layout keeps within 1 to 22 (R190). -/
def configItemsOk (fields : List Byte) : Bool :=
  (chunks 5 (byteAt fields 0) (fields.drop 1)).all fun e => 1 ≤ byteAt e 0 && byteAt e 0 ≤ 22

/-- Whether the fields have the whole layout of their kind: exactly the length of 11.2, for CHECK-OUT and CONFIGURE as
the count byte gives it, and every CONFIGURE item known (R178, R189, R190). -/
def layoutWhole (kind : RequestKind) (fields : List Byte) : Bool :=
  match kind with
  | .enrol => fields.length == 12
  | .retire => fields.length == 10
  | .shelve => fields.length == 12
  | .queryRecord => fields.length == 10
  | .releaseSuspect => fields.length == 16
  | .checkOut => fields.length == 1 + 10 * byteAt fields 0 && fields.length != 0
  | .cancelManifest => fields.length == 1
  | .authorize => fields.length == 2
  | .deny => fields.length == 1
  | .move => fields.length == 11
  | .queryZone => fields.length == 0
  | .excursionClear => fields.length == 0
  | .fireReset => fields.length == 0
  | .configure => fields.length == 1 + 5 * byteAt fields 0 && fields.length != 0 && configItemsOk fields
  | .reset => fields.length == 0

/-- The kinds that the custodian key guards (R178). -/
def RequestKind.custodial : RequestKind → Bool
  | .retire => true
  | .releaseSuspect => true
  | .excursionClear => true
  | .fireReset => true
  | .reset => true
  | .enrol => false
  | .shelve => false
  | .queryRecord => false
  | .checkOut => false
  | .cancelManifest => false
  | .authorize => false
  | .deny => false
  | .move => false
  | .queryZone => false
  | .configure => false

/-- The rack and slot bytes at a place, when the slot is 0 to 63 (R190). -/
def positionAt (fields : List Byte) (i : Nat) : Option Position :=
  if byteAt fields (i + 1) ≤ 63 then some ⟨byteAt fields i, byteAt fields (i + 1)⟩ else none

/-- The fields of a RELEASE SUSPECT (11.2). -/
structure ReleaseFields where
  id            : Ident
  disposition   : Nat
  positionGiven : Bool
  rack          : Nat
  slot          : Nat
  hold          : Option Nat
  deriving DecidableEq, Repr

/-- The fields of a whole RELEASE SUSPECT layout. Presence bits other than the two named are not read (log 17). -/
def releaseOf (fields : List Byte) : ReleaseFields where
  id := slice fields 0 10
  disposition := byteAt fields 10
  positionGiven := byteAt fields 11 % 2 == 1
  rack := byteAt fields 12
  slot := byteAt fields 13
  hold := if byteAt fields 11 / 2 % 2 == 1 then some (ofBytes (slice fields 14 2)) else none

/-- One entry of a CONFIGURE: its item number, its signed value, and the value's third and fourth byte (R190). -/
structure ConfigEntry where
  item   : Nat
  value  : Int
  third  : Nat
  fourth : Nat
  deriving DecidableEq, Repr

/-- The entries of a whole CONFIGURE layout, in their order (R190). -/
def configEntries (fields : List Byte) : List ConfigEntry :=
  (chunks 5 (byteAt fields 0) (fields.drop 1)).map fun e =>
    ⟨byteAt e 0, signedOf (slice e 1 4), byteAt e 3, byteAt e 4⟩

/-! ### Dock and case frames (11.4, R191) -/

/-- A dock or case frame: kind, two-byte body length, body, and the check over all of them (11.4). -/
def linkFrame (kind : Nat) (body : List Byte) : List Byte :=
  let head := BitVec.ofNat 8 kind :: toBytes 2 body.length ++ body
  head ++ toBytes 2 (crc head).toNat

/-- The two body bytes of a POLL: verdict and reason (11.4). -/
def verdictBytes : Verdict → List Byte
  | .none => [0, 0]
  | .accepted => [1, 0]
  | .rejected reason => [2, BitVec.ofNat 8 (rejectCode reason)]
  | .held => [3, 0]

/-- A dock frame as it stands on the link (11.4). -/
def DockFrame.bytes : DockFrame → List Byte
  | .wake => linkFrame 1 []
  | .poll verdict => linkFrame 2 (verdictBytes verdict)
  | .digest count d => linkFrame 3 (BitVec.ofNat 8 count :: toBytes 2 d.toNat)
  | .commit => linkFrame 4 []
  | .abort outcome => linkFrame 5 [BitVec.ofNat 8 (outcomeIndex outcome + 1)]

/-- The interval that five bytes of an IDENTITY spell (11.4). -/
def intervalOf (bytes : List Byte) : RawInterval :=
  ⟨bytes.getD 0 0, BitVec.ofNat 16 (ofBytes (slice bytes 1 2)), BitVec.ofNat 16 (ofBytes (slice bytes 3 2))⟩

/-- The five bytes of an interval of an IDENTITY (11.4). -/
def intervalBytes (i : RawInterval) : List Byte := i.minutes :: (toBytes 2 i.rh.toNat ++ toBytes 2 i.temperature.toNat)

/-- The body of a case frame by its kind, when its length is the one the kind's layout gives (R191). -/
def caseBodyOf (kind : Nat) (body : List Byte) : Option CaseFrame :=
  match kind with
  | 17 => if body.length = 0 then some .awake else none
  | 18 =>
    if 11 ≤ body.length ∧ body.length = 11 + 5 * byteAt body 10 then
      some (.identity (BitVec.ofNat 32 (ofBytes (slice body 0 4))) (BitVec.ofNat 24 (ofBytes (slice body 4 3)))
        (BitVec.ofNat 16 (ofBytes (slice body 7 2))) (body.getD 9 0)
        ((chunks 5 (byteAt body 10) (body.drop 11)).map intervalOf))
    else none
  | 19 => if body.length = 10 then some (.scan body) else none
  | 20 => if body.length = 0 then some .nothing else none
  | 21 => if body.length = 3 then some (.echo (body.getD 0 0) (BitVec.ofNat 16 (ofBytes (slice body 1 2)))) else none
  | 22 => if body.length = 2 then some (.done (BitVec.ofNat 16 (ofBytes body))) else none
  | _ => none

/-- The case frame that bytes on the link spell: the kind one of the six, the body length the layout's and the body's
own, the check matching (R191). -/
def caseFrameOf (bytes : List Byte) : Option CaseFrame :=
  let body := slice bytes 3 (bytes.length - 5)
  if 5 ≤ bytes.length ∧ ofBytes (slice bytes 1 2) = body.length ∧
      BitVec.ofNat 16 (ofBytes (bytes.drop (bytes.length - 2))) = crc (bytes.take (bytes.length - 2)) then
    caseBodyOf (byteAt bytes 0) body
  else none

/-- A case frame as a case sends it (11.4). -/
def CaseFrame.bytes : CaseFrame → List Byte
  | .awake => linkFrame 17 []
  | .identity caseId badge count intent intervals =>
      linkFrame 18 (toBytes 4 caseId.toNat ++ toBytes 3 badge.toNat ++ toBytes 2 count.toNat ++
        [intent, BitVec.ofNat 8 intervals.length] ++ intervals.flatMap intervalBytes)
  | .scan cartridge => linkFrame 19 cartridge
  | .nothing => linkFrame 20 []
  | .echo count digest => linkFrame 21 (count :: toBytes 2 digest.toNat)
  | .done count => linkFrame 22 (toBytes 2 count.toNat)

/-- The further checks that make a case frame well formed: those of R52 on an IDENTITY, and the lengths that its
layout can carry (R191). -/
def caseFrameOk : CaseFrame → Bool
  | .identity caseId badge _ intent intervals =>
      1 ≤ caseId.toNat && badge.toNat ≤ 999999 && (intent == 1 || intent == 2) && intervals.length ≤ 255
  | .scan cartridge => cartridge.length == 10
  | .awake => true
  | .nothing => true
  | .echo _ _ => true
  | .done _ => true

/-- The answers a dock frame admits (R48). -/
def admits : DockFrame → CaseFrame → Bool
  | .wake, .awake => true
  | .poll _, .identity _ _ _ _ _ => true
  | .poll _, .scan _ => true
  | .poll _, .nothing => true
  | .digest _ _, .echo _ _ => true
  | .commit, .done _ => true
  | _, _ => false

/-- The intent an IDENTITY's intent byte names (11.4). -/
def intentOf (intent : Byte) : Intent := if intent == 2 then .returning else .departing

/-- The summary kept of the reported intervals: the first 24, clamped, those of 0 minutes then dropped (R53). -/
def keptSummary (intervals : List RawInterval) : List Interval :=
  ((intervals.take 24).map fun i =>
    (⟨min i.minutes.toNat 240, min i.rh.toNat 1000, max (-200) (min 600 i.temperature.toInt)⟩ : Interval)).filter
      fun i => i.minutes != 0

/-! ### Probe answers (11.4, R191) -/

/-- The probe that an answer names, when it is seven bytes with a matching check (R191). -/
def answeringProbe (bytes : List Byte) : Option Nat :=
  if bytes.length = 7 ∧ BitVec.ofNat 16 (ofBytes (bytes.drop 5)) = crc (bytes.take 5) then some (byteAt bytes 0) else none

/-- The valid reading of a probe answer: seven bytes, the check matching the first five, the probe named, both values
in range (R99, R191). -/
def probeReading (asked : Nat) (bytes : List Byte) : Option Reading :=
  if bytes.length = 7 ∧ BitVec.ofNat 16 (ofBytes (bytes.drop 5)) = crc (bytes.take 5) ∧ byteAt bytes 0 = asked ∧
      ofBytes (slice bytes 1 2) ≤ 1000 ∧ -400 ≤ signedOf (slice bytes 3 2) ∧ signedOf (slice bytes 3 2) ≤ 850 then
    some ⟨ofBytes (slice bytes 1 2), signedOf (slice bytes 3 2)⟩
  else none

/-! ### The record answer (11.3) -/

/-- The code of a record state: SHELVED 0 to INBOUND 8 (11.3). -/
def RecState.code : RecState → Nat
  | .shelved _ => 0
  | .reserved _ _ => 1
  | .loading _ _ => 2
  | .out _ => 3
  | .returning _ => 4
  | .conditioning _ _ => 5
  | .suspect _ _ _ => 6
  | .transferring _ _ => 7
  | .inbound _ _ => 8

/-- The position of a record, when it is placed (R4). -/
def RecState.position : RecState → Option Position
  | .shelved p => p
  | .reserved p _ => some p
  | .loading p _ => some p
  | .out _ => none
  | .returning _ => none
  | .conditioning p _ => p
  | .suspect p _ _ => p
  | .transferring _ _ => none
  | .inbound _ _ => none

/-- The manifest field of a record (R2). -/
def RecState.manifest : RecState → Option Nat
  | .reserved _ m => some m
  | .loading _ m => some m
  | _ => none

/-- The case field of a record (R2). -/
def RecState.case : RecState → Option CaseField
  | .out c => some c
  | .returning c => some c
  | _ => none

/-- The peer field of a record (R2). -/
def RecState.peer : RecState → Option PeerField
  | .transferring p _ => some p
  | .inbound p _ => some p
  | _ => none

/-- The restore field of a record (R2). -/
def RecState.restore : RecState → Option Restore
  | .transferring _ r => some r
  | _ => none

/-- The hold field of a record: remaining, advised or carried, as the state gives (R6). -/
def RecState.hold : RecState → Option Nat
  | .conditioning _ h => some h
  | .suspect _ h _ => h
  | .inbound _ h => h
  | _ => none

/-- The suspect reason of a record (R2). -/
def RecState.reason : RecState → Option SuspectReason
  | .suspect _ _ r => some r
  | _ => none

/-- The prior hold of a restore field (R7). -/
def Restore.hold (r : Restore) : Option Nat :=
  match r.state with
  | .shelved => none
  | .conditioning h => some h

/-- The code of a prior state (11.3). -/
def PriorState.code : PriorState → Nat
  | .shelved => 0
  | .conditioning _ => 5

/-- The ten presence marks of a record answer, from the least significant bit (11.3). -/
def presenceMarks (r : Record) : Nat :=
  let marks := [r.st.position.isSome, r.st.manifest.isSome, r.st.case.isSome, r.st.peer.isSome, r.st.restore.isSome,
    (r.st.restore.bind (·.position)).isSome, (r.st.restore.bind (·.hold)).isSome, r.exposure.isSome, r.st.hold.isSome,
    r.st.reason.isSome]
  marks.foldr (fun b n => 2 * n + if b then 1 else 0) 0

/-- A position as two bytes, zero where there is none (11.3). -/
def positionBytes (p : Option Position) : List Byte :=
  [BitVec.ofNat 8 ((p.map (·.rack)).getD 0), BitVec.ofNat 8 ((p.map (·.slot)).getD 0)]

/-- The record answer of 44 bytes (11.3). -/
def recordBytes (r : Record) : List Byte :=
  r.id ++ [BitVec.ofNat 8 r.st.code] ++ toBytes 2 (presenceMarks r) ++ positionBytes r.st.position ++
    [BitVec.ofNat 8 (r.st.manifest.getD 0)] ++ toBytes 4 ((r.st.case.map (·.caseId)).getD 0) ++
    toBytes 2 ((r.st.case.map (·.departureCount)).getD 0) ++ toBytes 4 ((r.st.case.map (·.departureMinute)).getD 0) ++
    [BitVec.ofNat 8 ((r.st.peer.map (·.station)).getD 0), BitVec.ofNat 8 ((r.st.peer.map (·.number)).getD 0),
      BitVec.ofNat 8 ((r.st.restore.map (·.state.code)).getD 0)] ++
    positionBytes (r.st.restore.bind (·.position)) ++ toBytes 2 ((r.st.restore.bind (·.hold)).getD 0) ++
    toBytes 3 (r.exposure.getD 0) ++ toBytes 2 (r.st.hold.getD 0) ++
    [BitVec.ofNat 8 ((r.st.reason.map suspectCode).getD 0), flagByte r.logAbsent] ++ toBytes 4 r.stateMinute

/-! ### Notice content (11.1) -/

/-- An item that may be absent: a presence byte, then the item, or its zero bytes (11.1, log 14). -/
def optional (width : Nat) (item : Option (List Byte)) : List Byte :=
  match item with
  | none => List.replicate (width + 1) 0
  | some bytes => 1 :: bytes

/-- An optional number of that many bytes. -/
def optionalNat (width : Nat) (n : Option Nat) : List Byte := optional width (n.map (toBytes width))

/-- A list as a count byte followed by its members (11.1). -/
def listBytes (members : List Nat) : List Byte := BitVec.ofNat 8 members.length :: members.map (BitVec.ofNat 8)

/-- Two names coded 0 and 1 in the order a rule lists them: 0 when the first holds. -/
def firstOfTwo (first : Bool) : Byte := if first then 0 else 1

/-- An RH and a temperature, two bytes each. -/
def readingBytes (r : Reading) : List Byte := toBytes 2 r.rh ++ signedBytes r.temperature

/-- The content of a notice, item by item in the order of the emitting rule (11.1, log 14). The configured item of PEER PRESENCE is
coded as in the beacon, 0 UNCONFIGURED and 1 CONFIGURED. DESIGN CHOICE (R171, R189, log 40). The state of a probe is coded as in the
zone report, VALID 0 and FAILED 2, although R101 names FAILED first. DESIGN CHOICE (R101, 11.3, log 43). A name whose emitting rule lists
no names takes its place in the rule that defines it, or its code in 11.2 or 11.3. DESIGN CHOICE (11.1, log 43). -/
def Event.bytes : Event → List Byte
  | .fireState new previous cause alarms faults operated latch hold isolate doorOpen agentReady clock =>
      [BitVec.ofNat 8 (seqCode new), BitVec.ofNat 8 (seqCode previous), BitVec.ofNat 8 (fireCauseCode cause)] ++
        listBytes alarms ++ listBytes faults ++
        [firstOfTwo operated, firstOfTwo latch, firstOfTwo hold, firstOfTwo isolate, firstOfTwo (!doorOpen),
          firstOfTwo agentReady] ++ toBytes 4 clock
  | .releaseOutcome discharged doorOpen alarms latch clock =>
      [firstOfTwo discharged, firstOfTwo (!doorOpen)] ++ listBytes alarms ++ [firstOfTwo latch] ++ toBytes 4 clock
  | .detectorFault channel group state inService =>
      [BitVec.ofNat 8 channel, BitVec.ofNat 8 (groupCode group), BitVec.ofNat 8 (channelStateCode state),
        BitVec.ofNat 8 inService]
  | .neighbourAlarm flag holders clock => firstOfTwo flag :: listBytes holders ++ toBytes 4 clock
  | .peerPresence address presence beacon =>
      [BitVec.ofNat 8 address, BitVec.ofNat 8 (presenceCode presence)] ++
        optionalNat 1 (beacon.map fun b => if b.1 then 1 else 0) ++ optionalNat 1 (beacon.map fun b => seqCode b.2)
  | .addressConflict address cycle kind =>
      [BitVec.ofNat 8 address, BitVec.ofNat 8 cycle] ++ optional 1 (kind.map fun k => [k])
  | .authorizationWanted session caseId badge count intent intervals minutes =>
      [BitVec.ofNat 8 session] ++ toBytes 4 caseId ++ toBytes 3 badge ++ toBytes 2 count ++
        [BitVec.ofNat 8 (intentCode intent)] ++ optionalNat 1 intervals ++ optionalNat 2 minutes
  | .manifestEnded number cause members =>
      [BitVec.ofNat 8 number, firstOfTwo (decide (cause = .expired)), BitVec.ofNat 8 members]
  | .arrivalRefused => Config.refusedOutcomeCode :: optionalNat 1 none ++ optionalNat 4 none
  | .sessionEnded r =>
      [BitVec.ofNat 8 (outcomeIndex r.outcome), BitVec.ofNat 8 r.session] ++ optionalNat 1 (r.intent.map intentCode) ++
        optionalNat 4 r.caseId ++ optionalNat 1 r.manifest ++ [BitVec.ofNat 8 r.scanCount] ++ optionalNat 1 r.departed ++
        optionalNat 1 r.returned ++ optionalNat 1 r.conditioning ++ optionalNat 1 r.shelved ++ optionalNat 1 r.suspect ++
        optionalNat 1 r.reverted
  | .suspectEntry id reason advised => id ++ [BitVec.ofNat 8 (suspectCode reason)] ++ optionalNat 2 advised
  | .conditioningComplete id position exposure minute =>
      id ++ optional 2 (position.map fun p => positionBytes (some p)) ++ optionalNat 3 exposure ++ toBytes 4 minute
  | .transferOutcome id direction peer number outcome reason minute =>
      id ++ [firstOfTwo (decide (direction = .out)), BitVec.ofNat 8 peer, BitVec.ofNat 8 number,
        BitVec.ofNat 8 (transferOutcomeCode outcome)] ++ optional 1 (reason.map fun r => [r]) ++ toBytes 4 minute
  | .transitOverdue id destination number minute =>
      id ++ [BitVec.ofNat 8 destination, BitVec.ofNat 8 number] ++ toBytes 4 minute
  | .zoneBand inBand value => firstOfTwo inBand :: optional 4 (value.map readingBytes)
  | .probe number state reading =>
      [BitVec.ofNat 8 number, BitVec.ofNat 8 (probeStateCode state)] ++ readingBytes reading
  | .spreadHigh spread highest lowest => toBytes 2 spread ++ [BitVec.ofNat 8 highest, BitVec.ofNat 8 lowest]
  | .excursion account minute => toBytes 3 account ++ toBytes 4 minute
  | .restart cause interrupted deleted clock =>
      [firstOfTwo (decide (cause = .resetInput)), BitVec.ofNat 8 interrupted, BitVec.ofNat 8 deleted] ++ toBytes 4 clock

/-- The source an event is recorded on (R185). -/
def Event.source : Event → Nat
  | .fireState .. => 0
  | .releaseOutcome .. => 1
  | .detectorFault .. => 2
  | .neighbourAlarm .. => 3
  | .peerPresence .. => 4
  | .addressConflict .. => 5
  | .authorizationWanted .. => 6
  | .manifestEnded .. => 7
  | .arrivalRefused => 7
  | .sessionEnded .. => 7
  | .suspectEntry .. => 8
  | .conditioningComplete .. => 9
  | .transferOutcome .. => 10
  | .transitOverdue .. => 11
  | .zoneBand .. => 12
  | .probe .. => 13
  | .spreadHigh .. => 13
  | .excursion .. => 14
  | .restart .. => 15

end Sys2Proof.Machine
end

