-- ==== Sys2Proof/Machine/Tables.lean ====
section
/-! DEFINITION. Tables found by identifier: lists kept strictly rising by identifier, so that equal tables are equal
data (log 16). The custody register and the transfer table are such tables. -/

namespace Sys2Proof.Machine

variable {α : Type}

/-- The item with an identifier (R10, R143). -/
def findBy (key : α → Ident) (id : Ident) (l : List α) : Option α := l.find? fun x => decide (key x = id)

/-- The table with an item under its identifier, in place of any item that had it. -/
def putBy (key : α → Ident) (item : α) : List α → List α
  | [] => [item]
  | x :: rest =>
    if key x = key item then item :: rest
    else if identLt (key item) (key x) then item :: x :: rest
    else x :: putBy key item rest

/-- The table without the item under an identifier. -/
def eraseBy (key : α → Ident) (id : Ident) (l : List α) : List α := l.filter fun x => decide (key x ≠ id)

/-- The table is strictly rising by identifier. -/
def sortedBy (key : α → Ident) : List α → Bool
  | [] => true
  | [_] => true
  | x :: y :: rest => identLt (key x) (key y) && sortedBy key (y :: rest)

/-- The item at a numbered place of a table whose first number is `base`. -/
def entryAt (base : Nat) (l : List α) (number : Nat) : Option α := if number < base then none else l[number - base]?

/-- The table with another item at a numbered place. -/
def setEntry (base : Nat) (l : List α) (number : Nat) (item : α) : List α :=
  if number < base then l else l.set (number - base) item

end Sys2Proof.Machine
end

