-- ==== Sys2Proof/Machine/Flags.lean ====
section
/-! DEFINITION. The conditions and status values the spec judges on the state as it stands: configuration, zone minute,
occupancy, the fire conditions, forcing, running, the band, and the outputs that follow from them. -/

namespace Sys2Proof.Machine

/-! ### Configuration and clock -/

/-- Whether the station is CONFIGURED: it then holds a configuration record (R176). -/
def State.configured (s : State) : Bool := s.request.config.isSome

/-- The configuration in force: the record, or before it the built-in defaults (R115, R176). -/
def State.cfg (s : State) : ConfigRecord := s.request.config.getD defaultConfig

/-- The zone minute: the zone clock divided by 60, rounded down (R14). -/
def State.minute (s : State) : Nat := s.custody.zoneClock / 60

/-! ### Register -/

/-- The record with an identifier. -/
def State.find (s : State) (id : Ident) : Option Record := findBy Record.id id s.custody.register

/-- Whether a scan list entry is UNREGISTERED (R58). -/
def ScanEntry.isUnregistered (e : ScanEntry) : Bool := e.kind == .unregistered

/-- Whether the scan list holds an identifier (R58). -/
def State.scanned (s : State) (id : Ident) : Bool := s.dock.scans.any fun e => decide (e.id = id)

/-- The occupancy: the records and the unregistered entries of the scan list (R11). -/
def State.occupancy (s : State) : Nat := s.custody.register.length + s.dock.scans.countP ScanEntry.isUnregistered

/-- Whether an identifier is known: a record has it, or an unregistered entry of the scan list (R10). -/
def State.known (s : State) (id : Ident) : Bool :=
  (s.find id).isSome || s.dock.scans.any fun e => e.isUnregistered && decide (e.id = id)

/-- The manifest under a number, when the entry is not free (R25). -/
def State.manifest? (s : State) (number : Nat) : Option Manifest := (entryAt 1 s.custody.manifests number).join

/-- The transfer entry that names an identifier (R143). -/
def State.entry (s : State) (id : Ident) : Option TransferEntry := findBy TransferEntry.id id s.transfer.entries

/-- The direction of a transfer entry (R143). -/
def TransferEntry.direction (e : TransferEntry) : Direction :=
  match e.state with
  | .offered _ => .out
  | .taken _ => .out
  | .awaitingArrival _ => .in_

/-! ### Fire conditions (R116, R120, R135) -/

/-- ALARM-1 or a later state (R27, R44, R107, R134, R135). -/
def Seq.inAlarm (q : Seq) : Bool := 2 ≤ seqCode q

/-- CONFIRMED, PRE-DISCHARGE, DISCHARGE or SOAK: the states that drive the confirmed bit (R135). -/
def Seq.isConfirmed (q : Seq) : Bool := 3 ≤ seqCode q && seqCode q ≤ 6

/-- The group of a channel (R115). -/
def State.group (s : State) (channel : Nat) : Group := s.cfg.groups.getD channel .unused

/-- The recorded state of a channel (R116). -/
def State.channel (s : State) (channel : Nat) : ChannelState := s.fire.channels.getD channel .normal

/-- A channel is in service when it is assigned to A or B and is not in FAULT (R116). -/
def State.inService (s : State) (channel : Nat) : Bool :=
  s.group channel != .unused && s.channel channel != .fault

/-- The channel numbers. -/
def channelNumbers : List Nat := [0, 1, 2, 3, 4, 5, 6, 7]

/-- The in-service channels of a group. -/
def State.groupInService (s : State) (g : Group) : List Nat :=
  channelNumbers.filter fun c => s.group c == g && s.inService c

/-- The in-service channels in ALARM, by number (R129). -/
def State.alarmChannels (s : State) : List Nat :=
  channelNumbers.filter fun c => s.inService c && s.channel c == .alarm

/-- The channels assigned A or B that are in FAULT (R129). R129 orders the channels in ALARM by number and these by nothing; they are listed
by ascending number. DESIGN CHOICE (log 41). -/
def State.faultChannels (s : State) : List Nat :=
  channelNumbers.filter fun c => s.group c != .unused && s.channel c == .fault

/-- The in-service channels of a group that are in ALARM. -/
def State.groupAlarms (s : State) (g : Group) : Nat := s.alarmChannels.countP fun c => s.group c == g

/-- The alert condition (R120). -/
def State.alertCondition (s : State) : Bool := channelNumbers.any fun c => s.inService c && s.channel c == .alert

/-- The alarm condition (R120). -/
def State.alarmCondition (s : State) : Bool := !s.alarmChannels.isEmpty

/-- The confirmation condition: cross-zoning of the groups, or two of the one group that is in service (R120). -/
def State.confirmationCondition (s : State) : Bool :=
  match (s.groupInService .a).isEmpty, (s.groupInService .b).isEmpty with
  | false, false => 1 ≤ s.groupAlarms .a && 1 ≤ s.groupAlarms .b
  | true, false => 2 ≤ s.groupAlarms .b
  | false, true => 2 ≤ s.groupAlarms .a
  | true, true => false

/-- The sounder that a sequence state and the general-alarm record give (R133). -/
def sounderFor (q : Seq) (generalSeen : Bool) : Sounder :=
  match q with
  | .quiet => if generalSeen then .alert else .off
  | .preAlert => if generalSeen then .alert else .off
  | .alarm1 => .alert
  | .confirmed => .evacuate
  | .preDischarge => .evacuate
  | .discharge => .evacuate
  | .soak => .evacuate
  | .resetWait => .off

/-- Whether the damper is CLOSED (R134). -/
def damperFor (q : Seq) (neighbourAlert : Bool) : Bool := q.inAlarm || neighbourAlert

/-- The bits this station drives in the alarm field: its pair, the alarm bit first, and the general-alarm bit last
(R135, 11.1); bit `n` of the word is the field's bit sent in place `n`. -/
def State.alarmBits (s : State) : BitVec 33 :=
  let own := s.line.address
  (if s.fire.seq.inAlarm then BitVec.twoPow 33 (2 * own) else 0) |||
    (if s.fire.seq.isConfirmed then BitVec.twoPow 33 (2 * own + 1) else 0) |||
    (if s.fire.seq.isConfirmed then BitVec.twoPow 33 32 else 0)

/-- The addresses, from `base`, of the peers that hold the neighbour-alert flag (R136). R137 gives their list no order; they are listed by
ascending address. DESIGN CHOICE (log 41). -/
def holdersFrom (base : Nat) : List PeerEntry → List Nat
  | [] => []
  | p :: rest =>
    if p.neighbour && p.presence == .present && p.confirmed then base :: holdersFrom (base + 1) rest
    else holdersFrom (base + 1) rest

/-- The configured neighbours that are PRESENT and show their confirmed bit (R136). -/
def State.alertHolders (s : State) : List Nat := holdersFrom 0 s.line.peers

/-! ### Climate conditions -/

/-- A forcing condition holds (R107). -/
def State.forcing (s : State) : Bool :=
  !s.configured || s.climate.zone.isNone || s.fire.seq.inAlarm || s.fire.neighbourAlert

/-- Whether a probe is polled: all four before configuration, then those up to the configured count (R97). -/
def State.polled (s : State) (probe : Nat) : Bool :=
  1 ≤ probe && probe ≤ (if s.configured then s.cfg.probeCount else 4)

/-- The excess of a value over a band around its set point (R78). -/
def excess (value : Int) (setPoint band : Nat) : Nat := (value - setPoint).natAbs - band

/-- The weight of an RH and a temperature: the RH excess plus twice the temperature excess (R78, R79). -/
def weight (c : ConfigRecord) (rh : Nat) (temperature : Int) : Nat :=
  excess rh c.rhSet c.rhBand + 2 * excess temperature c.tempSet c.tempBand

/-- The judgement of the band on the zone value as it stands (R104). -/
def State.bandJudged (s : State) : Bool :=
  s.configured &&
    match s.climate.zone with
    | none => false
    | some z =>
      ((z.rh : Int) - s.cfg.rhSet).natAbs ≤ s.cfg.rhBand && (z.temperature - s.cfg.tempSet).natAbs ≤ s.cfg.tempBand

/-- The last valid readings of the usable probes, with the probes' numbers from `base` (R102). -/
def usableFrom (polled : Nat → Bool) (base : Nat) : List ProbeRecord → List (Nat × Reading)
  | [] => []
  | p :: rest =>
    match p.reading with
    | some r =>
      if polled base && p.state != .failed then (base, r) :: usableFrom polled (base + 1) rest
      else usableFrom polled (base + 1) rest
    | none => usableFrom polled (base + 1) rest

/-- The usable probes' readings (R102). -/
def State.usable (s : State) : List (Nat × Reading) := usableFrom s.polled 1 s.climate.probes

/-- The mean rounded to the nearest whole, a half upward (R102). -/
def roundedMean (sum : Int) (count : Nat) : Int := (2 * sum + count) / (2 * count)

/-- The zone value formed from usable readings (R102). -/
def zoneValueOf (readings : List (Nat × Reading)) : Option Reading :=
  match readings with
  | [] => none
  | _ =>
    some ⟨(roundedMean ((readings.map fun r => (r.2.rh : Int)).sum) readings.length).toNat,
      roundedMean ((readings.map fun r => r.2.temperature).sum) readings.length⟩

/-- The RH spread of two or more usable readings: the highest less the lowest (R103). -/
def rhSpreadOf (readings : List (Nat × Reading)) : Option Nat :=
  match readings with
  | [] => none
  | [_] => none
  | r :: rest =>
    some ((rest.map fun x => x.2.rh).foldl max r.2.rh - (rest.map fun x => x.2.rh).foldl min r.2.rh)

/-- Whether an output's minimum-off time has passed (R106). -/
def minimumOffPassed (now : Nat) (o : ClimateOutput) : Bool :=
  match o.offAt with
  | none => true
  | some t => minimumOff ≤ now - t

/-! ### Conditioning and notices -/

/-- The accumulator runs: CONFIGURED, IN BAND, and the fire sequence QUIET or PRE-ALERT (R87). -/
def State.conditioningRuns (s : State) : Bool := s.configured && s.climate.inBand && !s.fire.seq.inAlarm

/-- The level of a source, none when it is OFF (R185). -/
def State.level (s : State) (source : Nat) : Option Nat := s.cfg.levels.getD source none

/-- Whether a source records: before configuration the four that always do, then those not OFF (R185). -/
def State.records (s : State) (source : Nat) : Bool :=
  if s.configured then (s.level source).isSome
  else match sourceTable[source]? with
    | some row => row.always
    | none => false

end Sys2Proof.Machine
end

