-- ==== Sys2Proof/Machine/Ops.lean ====
section
/-! DEFINITION. The named operations that every family shares: record and table changes, queues, notice events, free
choices, the ends of manifests, and the forcing of the climate outputs. -/

namespace Sys2Proof.Machine

/-! ### Custody register and tables (R8) -/

/-- The state with another register. -/
def State.setRegister (s : State) (register : List Record) : State := s.withCustody { s.custody with register := register }

/-- The state with another manifest table. -/
def State.setManifests (s : State) (manifests : List (Option Manifest)) : State :=
  s.withCustody { s.custody with manifests := manifests }

/-- The state with a record under its identifier. -/
def State.putRecord (s : State) (r : Record) : State := s.setRegister (putBy Record.id r s.custody.register)

/-- The state without the record of an identifier, which is free at once (R10). -/
def State.eraseRecord (s : State) (id : Ident) : State := s.setRegister (eraseBy Record.id id s.custody.register)

/-- A record that enters a state takes the zone minute as its state minute (R3). -/
def Record.enter (r : Record) (st : RecState) (minute : Nat) : Record := { r with st := st, stateMinute := minute }

/-- One manifest entry made free or given another manifest (R25). -/
def State.setManifest (s : State) (number : Nat) (m : Option Manifest) : State :=
  s.setManifests (setEntry 1 s.custody.manifests number m)

/-- The state with another transfer table. -/
def State.setEntries (s : State) (entries : List TransferEntry) : State := s.withTransfer { s.transfer with entries := entries }

/-- The state with a transfer entry under its identifier. -/
def State.putEntry (s : State) (e : TransferEntry) : State := s.setEntries (putBy TransferEntry.id e s.transfer.entries)

/-- The state with the transfer entry of an identifier freed. -/
def State.eraseEntry (s : State) (id : Ident) : State := s.setEntries (eraseBy TransferEntry.id id s.transfer.entries)

/-! ### Queues (R169) -/

/-- Whether the answer queue has a free place. -/
def State.answerRoom (s : State) : Bool := s.line.answers.length < queueDepth

/-- Whether the peer output queue has a free place. -/
def State.peerRoom (s : State) : Bool := s.line.peerOut.length < peerOutDepth

/-- An answer placed at the tail of the answer queue (R177). -/
def State.queueAnswer (s : State) (a : Answer) : State := s.withLine { s.line with answers := s.line.answers ++ [a] }

/-- A transfer message placed at the tail of the peer output queue. -/
def State.queuePeer (s : State) (m : PeerOut) : State := s.withLine { s.line with peerOut := s.line.peerOut ++ [m] }

/-! ### Notice events (R186) -/

/-- The pending notice of a source once an event is recorded on it (R186). -/
def recordEvent (clock : Nat) (e : Event) : Option PendingNotice → PendingNotice
  | none => ⟨e, 0, clock, false, 0⟩
  | some n =>
    { n with content := e, time := clock, repeats := min (n.repeats + 1) 255,
             inSlot := if n.sending then min (n.inSlot + 1) 256 else n.inSlot }

/-- The pending notice of a source. -/
def State.pendingNotice (s : State) (source : Nat) : Option PendingNotice := (s.notices.pending[source]?).join

/-- The state with another pending notice of a source. -/
def State.setNotice (s : State) (source : Nat) (n : Option PendingNotice) : State :=
  s.withNotices ⟨s.notices.pending.set source n⟩

/-- A block emits an event: it is recorded on its source if that source records, and discarded otherwise (R185, R186). -/
def State.emit (s : State) (e : Event) : State :=
  if s.records e.source then s.setNotice e.source (some (recordEvent s.custody.zoneClock e (s.pendingNotice e.source))) else s

/-- Events emitted one after the other, in the order of the list. -/
def State.emitAll (s : State) (events : List Event) : State := events.foldl State.emit s

/-! ### Free choices (log 7) -/

/-- An item of a list between which no rule chooses, and the state with the choice drawn. One item alone is no choice. -/
def State.choose {α : Type} (s : State) : List α → Option α × State
  | [] => (none, s)
  | [x] => (some x, s)
  | x :: y :: rest => ((x :: y :: rest)[Config.pick s.free % (rest.length + 2)]?, s.withFree (s.free + 1))

/-- A step repeated. -/
def repeatStep (f : State → State) : Nat → State → State
  | 0, s => s
  | n + 1, s => repeatStep f n (f s)

/-! ### The end of a manifest (R31, R33, R36) -/

/-- A RESERVED record of a manifest that ends goes to SHELVED at its position (R31). -/
def releaseMember (number minute : Nat) (r : Record) : Record :=
  match r.st with
  | .reserved p m => if m = number then r.enter (.shelved (some p)) minute else r
  | _ => r

/-- The members of a manifest still RESERVED go to SHELVED, and its entry becomes free, in one change (R31, R36). -/
def State.freeManifest (s : State) (number : Nat) : State :=
  (s.setRegister (s.custody.register.map (releaseMember number s.minute))).setManifest number none

/-- A manifest ends by expiry or cancellation, with its DOCK AND MANIFEST event (R31, R33). -/
def State.endManifest (s : State) (number : Nat) (m : Manifest) (cause : ManifestEnd) : State :=
  (s.freeManifest number).emit (.manifestEnded number cause m.members.length)

/-! ### The forcing of the climate outputs (R106, R107) -/

/-- An output turned OFF; one that is OFF already keeps the time it recorded (R106, R107). -/
def ClimateOutput.turnOff (now : Nat) (o : ClimateOutput) : ClimateOutput := if o.on then ⟨false, some now⟩ else o

/-- While a forcing condition holds both outputs are OFF (R107). -/
def State.forceOutputs (s : State) : State :=
  if s.forcing then
    s.withClimate { s.climate with humidify := s.climate.humidify.turnOff s.now, dehumidify := s.climate.dehumidify.turnOff s.now }
  else s

end Sys2Proof.Machine
end

