-- ==== Sys2Proof/Machine/DockOps.lean ====
section
/-! DEFINITION. What the dock unit's events share: sending frames, ending exchanges and sessions, and counting faults
(R47, R49, R50, R70, R71, R73). -/

namespace Sys2Proof.Machine

/-- A session in progress before its commit point (R43, R71). -/
def SessionState.beforeCommit : SessionState → Bool
  | .idle => false
  | .waking => true
  | .identifying => true
  | .awaitingAuth => true
  | .loading => true
  | .sealing => true
  | .committing => false

/-! ### Frames and exchanges -/

/-- A frame sent on the dock link; all but ABORT begin an exchange (R47, R50). -/
def State.sendFrame (s : State) (f : DockFrame) : State :=
  s.withDock { s.dock with outstanding := some ⟨f, s.now⟩, lastFrame := some f, lastSentAt := some s.now }

/-- An ABORT frame sent: once, its answer not awaited (R50). -/
def State.sendAbort (s : State) (o : SessionOutcome) : State :=
  s.withDock { s.dock with pendingAbort := none, lastFrame := some (.abort o), lastSentAt := some s.now }

/-- The identifiers of the scan list in scan order, as the bytes the digest covers (R65). -/
def scanBytes (scans : List ScanEntry) : List Byte := scans.flatMap fun e => e.id

/-- The digest of the scan list (R65). -/
def State.digest (s : State) : Word16 := crc (scanBytes s.dock.scans)

/-- The frame that the session state sends (R47); in LOADING a POLL carries the last verdict (R59), before it NONE. -/
def State.stateFrame (s : State) : Option DockFrame :=
  match s.dock.session with
  | .idle => none
  | .waking => some .wake
  | .identifying => some (.poll .none)
  | .awaitingAuth => some (.poll .none)
  | .loading => some (.poll s.dock.verdict)
  | .sealing => some (.digest s.dock.scans.length s.digest)
  | .committing => some .commit

/-- The state's next frame is sent, if no exchange is outstanding (R47). -/
def State.sendNext (s : State) : State :=
  match s.dock.outstanding, s.stateFrame with
  | none, some f => s.sendFrame f
  | _, _ => s

/-- SEALING and COMMITTING have no interval: their frame follows as soon as the previous exchange has been ended by an answer (R47, log
28). -/
def State.sendAtOnce (s : State) : State :=
  match s.dock.session with
  | .sealing => s.sendNext
  | .committing => s.sendNext
  | _ => s

/-- The outstanding exchange ends; an ABORT held for it is then sent (R50). -/
def State.endExchange (s : State) : State :=
  let ended := s.withDock { s.dock with outstanding := none }
  match s.dock.pendingAbort with
  | some o => ended.sendAbort o
  | none => ended

/-! ### The end of a session -/

/-- A record that the session took to LOADING or RETURNING goes back (R71). -/
def revertRecord (minute : Nat) (r : Record) : Record :=
  match r.st with
  | .loading p m => r.enter (.reserved p m) minute
  | .returning c => r.enter (.out c) minute
  | _ => r

/-- The bound manifest returns to OPEN with the lifetime it kept (R37). -/
def State.reopenManifest (s : State) : State :=
  match s.dock.manifest with
  | none => s
  | some number =>
    match s.manifest? number with
    | none => s
    | some m => s.setManifest number (some { m with state := .waiting })

/-- What the session's end reports, the counts apart (R73). -/
def State.report (s : State) (o : SessionOutcome) (scanCount : Nat) : SessionReport where
  outcome := o
  session := s.dock.number
  intent := s.dock.intent
  caseId := s.dock.identity.map (·.caseId)
  manifest := s.dock.manifest
  scanCount := scanCount
  departed := none
  returned := none
  conditioning := none
  shelved := none
  suspect := none
  reverted := none

/-- The session context cleared to IDLE (R71), with the exchange, the pending ABORT, the indicator and the last frame
as given. -/
def DockUnit.cleared (d : DockUnit) (indicator : Indicator) (display : Option Nat) : DockUnit :=
  { idleDock d.number with outstanding := d.outstanding, pendingAbort := d.pendingAbort, indicator := indicator,
                           displayTimer := display, lastFrame := d.lastFrame, lastSentAt := d.lastSentAt }

/-- The ABORT of a session that ended: sent at once when no exchange is outstanding, otherwise held pending (R50). -/
def State.abort (s : State) (o : SessionOutcome) : State :=
  match s.dock.outstanding with
  | none => s.sendAbort o
  | some _ => s.withDock { s.dock with pendingAbort := some o }

/-- The session's record changes reverted in one change with the emptying of the scan list (R37, R71). -/
def State.revertSession (s : State) : State :=
  let reopened := s.reopenManifest
  (reopened.setRegister (reopened.custody.register.map (revertRecord s.minute))).withDock { s.dock with scans := [] }

/-- A session ends before its commit point: reverted, its event emitted, the context cleared, the indicator REFUSED, and
an ABORT sent or held, except after a case removal (R50, R71, R73). -/
def State.endUncommitted (s : State) (o : SessionOutcome) : State :=
  let report := { s.report o s.dock.scans.length with reverted := some s.dock.scans.length }
  let reported := s.revertSession.emit (.sessionEnded report)
  let idle := reported.withDock (reported.dock.cleared .refused (some s.now))
  match o with
  | .caseRemoved => idle.withDock { idle.dock with outstanding := none, pendingAbort := none }
  | _ => idle.abort o

/-- The report of a session past its commit point: the counts taken there, by intent (R73). -/
def State.commitReport (s : State) (o : SessionOutcome) : SessionReport :=
  match s.dock.commit with
  | none => s.report o 0
  | some c =>
    match s.dock.intent with
    | some .returning =>
      { s.report o c.scanCount with conditioning := some c.conditioning, shelved := some c.shelved, suspect := some c.suspect }
    | _ => { s.report o c.scanCount with departed := some c.departed, returned := some c.returned }

/-- A session ends past its commit point, with COMMITTED or HANDOVER UNCONFIRMED: the commit stands and no ABORT is sent
(R46, R70, R73). -/
def State.endCommitted (s : State) (o : SessionOutcome) : State :=
  let reported := s.emit (.sessionEnded (s.commitReport o))
  let shown : Indicator × Option Nat := if o = .committed then (.off, none) else (.refused, some s.now)
  reported.withDock { reported.dock.cleared shown.1 shown.2 with outstanding := none, pendingAbort := none }

/-- A frame fault (R49): not counted in WAKING; the third consecutive one ends the session; any other lets the frame be
sent again. -/
def State.frameFault (s : State) : State :=
  match s.dock.session with
  | .idle => s
  | .waking => s
  | .committing =>
    if faultLimit ≤ s.dock.faults + 1 then s.endCommitted .handoverUnconfirmed
    else s.withDock { s.dock with faults := s.dock.faults + 1 }
  | .identifying =>
    if faultLimit ≤ s.dock.faults + 1 then s.endUncommitted .linkFault
    else s.withDock { s.dock with faults := s.dock.faults + 1 }
  | .awaitingAuth =>
    if faultLimit ≤ s.dock.faults + 1 then s.endUncommitted .linkFault
    else s.withDock { s.dock with faults := s.dock.faults + 1 }
  | .loading =>
    if faultLimit ≤ s.dock.faults + 1 then s.endUncommitted .linkFault
    else s.withDock { s.dock with faults := s.dock.faults + 1 }
  | .sealing =>
    if faultLimit ≤ s.dock.faults + 1 then s.endUncommitted .linkFault
    else s.withDock { s.dock with faults := s.dock.faults + 1 }

end Sys2Proof.Machine
end

