-- ==== Sys2Proof/Machine/TransferOps.lean ====
section
/-! DEFINITION. What the transfer unit's ends share: restoring a record, losing it, deleting it, and the withdrawal of
offers on entry to confirmation (R7, R150, R152, R155, R157, R159). -/

namespace Sys2Proof.Machine

/-- The state that a restore field gives back; an entry to CONDITIONING never exceeds the hold ceiling (R7, R90). -/
def Restore.back (ceiling : Nat) (r : Restore) : RecState :=
  match r.state with
  | .shelved => .shelved r.position
  | .conditioning hold => .conditioning r.position (min hold ceiling)

/-- The record of an identifier, restored from TRANSFERRING (R7). -/
def State.restoreRecord (s : State) (id : Ident) : State :=
  match s.find id with
  | none => s
  | some r =>
    match r.st with
    | .transferring _ restore => s.putRecord (r.enter (restore.back s.cfg.ceiling) s.minute)
    | _ => s

/-- The TRANSFER OUTCOME event of an entry's end (R160). -/
def State.outcomeEvent (s : State) (e : TransferEntry) (outcome : TransferOutcome) (reason : Option Byte) : Event :=
  .transferOutcome e.id e.direction e.peer e.number outcome reason s.minute

/-- A transfer in OFFERED ends with the cartridge kept: the record restored, the entry freed, the outcome reported (R150). -/
def State.keepCartridge (s : State) (e : TransferEntry) (outcome : TransferOutcome) (reason : Option Byte) : State :=
  let restored := (s.restoreRecord e.id).eraseEntry e.id
  restored.emit (restored.outcomeEvent e outcome reason)

/-- A transfer ends with this zone's record of the cartridge deleted, the entry freed and the outcome reported
(R151, R157, R159). -/
def State.dropCartridge (s : State) (e : TransferEntry) (outcome : TransferOutcome) : State :=
  let dropped := (s.eraseRecord e.id).eraseEntry e.id
  dropped.emit (dropped.outcomeEvent e outcome none)

/-- A record in TRANSFERRING becomes SUSPECT for a reason: unplaced, the prior hold its advised hold (R7, R23, R152). -/
def loseRecord (reason : SuspectReason) (minute : Nat) (r : Record) : Record :=
  match r.st with
  | .transferring _ restore => r.enter (.suspect none restore.hold reason) minute
  | _ => r

/-- An OUT entry in OFFERED. -/
def TransferEntry.isOffered (e : TransferEntry) : Bool :=
  match e.state with
  | .offered _ => true
  | .taken _ => false
  | .awaitingArrival _ => false

/-- A WITHDRAW placed in the peer output queue, unless the queue is full (R155). -/
def State.queueWithdraw (s : State) (e : TransferEntry) : State :=
  if s.peerRoom then s.queuePeer ⟨e.peer, .withdraw e.id e.number⟩ else s

/-- On entry to confirmation every OFFERED entry is withdrawn, in one change: records restored, entries freed, WITHDRAWs
queued in ascending order of identifier, then the events in the same order (R155). -/
def State.withdrawOffers (s : State) : State :=
  let offers := s.transfer.entries.filter TransferEntry.isOffered
  let kept := offers.foldl (fun t e => (t.restoreRecord e.id).eraseEntry e.id) s
  let queued := offers.foldl State.queueWithdraw kept
  queued.emitAll (offers.map fun e => queued.outcomeEvent e .withdrawn none)

end Sys2Proof.Machine
end

