-- ==== Sys2Proof/Machine/FireOps.lean ====
section
/-! DEFINITION. The fire unit's shared operations: a change of sequence state with all that goes with it, the entry to
confirmation, the evaluation of the sequence, the neighbour-alert flag and the input survey (R121 to R142). -/

namespace Sys2Proof.Machine

/-- The sounder and the damper as the sequence state, the general-alarm record and the flag give them (R133, R134). -/
def State.refreshFireOutputs (s : State) : State :=
  s.withFire { s.fire with sounder := sounderFor s.fire.seq s.fire.generalSeen,
                           damperClosed := damperFor s.fire.seq s.fire.neighbourAlert }

/-- The FIRE STATE event of a change (R129). -/
def State.fireEvent (s : State) (previous : Seq) (cause : FireCause) : Event :=
  .fireState s.fire.seq previous cause s.alarmChannels s.faultChannels s.fire.callOperated s.fire.callLatch s.fire.holdOn
    s.fire.isolateOn s.fire.doorOpen s.fire.agentReady s.custody.zoneClock

/-- The fire unit in a sequence state: each timer runs in its own state alone, from the length in force as it starts, and
the release output is active in DISCHARGE alone (R125, R128). -/
def FireUnit.inSeq (f : FireUnit) (q : Seq) (cfg : ConfigRecord) (now : Nat) : FireUnit :=
  { f with seq := q,
           countdown := if q = .preDischarge then some (now + 1000 * cfg.preDischarge) else none,
           pulse := if q = .discharge then some (now + pulseLength) else none,
           soak := if q = .soak then some (now + 1000 * cfg.soakTime) else none,
           release := decide (q = .discharge) }

/-- A change of sequence state in one change: timers, outputs, the FIRE STATE event, and the climate outputs forced
(R107, R128, R129, R133, R134, R138). -/
def State.enterSeq (s : State) (q : Seq) (cause : FireCause) : State :=
  let entered := (s.withFire (s.fire.inSeq q s.cfg s.now)).refreshFireOutputs
  (entered.emit (entered.fireEvent s.fire.seq cause)).forceOutputs

/-- On entry to confirmation a session before its commit point ends with FIRE (R72). -/
def State.fireEndsSession (s : State) : State :=
  if s.dock.session.beforeCommit then s.endUncommitted .fire else s

/-- Entry to confirmation (R122): CONFIRMED while hold or isolate is ON, otherwise PRE-DISCHARGE directly; it ends the
uncommitted session (R72) and withdraws the offers (R155). -/
def State.enterConfirmation (s : State) : State :=
  let cause : FireCause := if s.confirmationCondition then .confirmation else .manualCall
  let entered := s.enterSeq (if s.fire.holdOn || s.fire.isolateOn then .confirmed else .preDischarge) cause
  entered.fireEndsSession.withdrawOffers

/-- The first condition of R121: confirmation by the detectors, or by the latch where manual confirms is yes. -/
def State.confirms (s : State) : Bool := s.confirmationCondition || (s.fire.callLatch && s.cfg.manualConfirms)

/-- The change into ALARM-1, with its cause (R121, R129). -/
def State.enterAlarm (s : State) : State := s.enterSeq .alarm1 (if s.alarmCondition then .alarm else .manualCall)

/-- The evaluation of the sequence (R121): at most one change of state, the first whose condition holds. -/
def State.evaluate (s : State) : State :=
  match s.fire.seq with
  | .quiet =>
    if s.confirms then s.enterConfirmation
    else if s.alarmCondition || s.fire.callLatch then s.enterAlarm
    else if s.alertCondition then s.enterSeq .preAlert .alert
    else s
  | .preAlert =>
    if s.confirms then s.enterConfirmation
    else if s.alarmCondition || s.fire.callLatch then s.enterAlarm
    else if s.alertCondition then s
    else s.enterSeq .quiet .alertCleared
  | .alarm1 => if s.confirms then s.enterConfirmation else s
  | .confirmed => s
  | .preDischarge => s
  | .discharge => s
  | .soak => s
  | .resetWait => s

/-- What a change of the hold or isolate input does in CONFIRMED and PRE-DISCHARGE (R123); elsewhere it is evaluated as
any other event (R119, R121). -/
def State.judgeSwitches (s : State) : State :=
  match s.fire.seq with
  | .confirmed => if s.fire.holdOn || s.fire.isolateOn then s else s.enterSeq .preDischarge .released
  | .preDischarge => if s.fire.holdOn || s.fire.isolateOn then s.enterSeq .confirmed .held else s
  | _ => s.evaluate

/-- The neighbour-alert flag judged afresh; a change of it moves the damper, emits NEIGHBOUR ALARM and forces the climate
outputs (R107, R134, R136, R137). -/
def State.judgeNeighbours (s : State) : State :=
  let flag := !s.alertHolders.isEmpty
  if flag = s.fire.neighbourAlert then s
  else
    let set := (s.withFire { s.fire with neighbourAlert := flag }).refreshFireOutputs
    (set.emit (.neighbourAlarm flag s.alertHolders s.custody.zoneClock)).forceOutputs

/-- The DETECTOR FAULT event of a channel as it stands (R117). -/
def State.faultEvent (s : State) (channel : Nat) : Event :=
  .detectorFault channel (s.group channel) (s.channel channel) (s.groupInService (s.group channel)).length

/-- The input survey at the end of a reset, as one event: every channel and switch recorded as the pins give it, the
faults reported in ascending channel number, an OPERATED call point setting the latch, and one evaluation (R139). -/
def State.inputSurvey (s : State) : State :=
  let p := s.pins
  let recorded := s.withFire { s.fire with
    channels := p.channels, callOperated := p.callOperated, callLatch := s.fire.callLatch || p.callOperated,
    holdOn := p.holdOn, isolateOn := p.isolateOn, doorOpen := p.doorOpen, agentReady := p.agentReady }
  (recorded.emitAll (recorded.faultChannels.map recorded.faultEvent)).evaluate

end Sys2Proof.Machine
end

