-- ==== Sys2Proof/Machine/Settle.lean ====
section
/-! DEFINITION. The rollover with the holds it completes (R88, R89), and the follow-on steps that a tick leaves due, each due by a
value of the state, with their settling before any other command is taken (log 1): the expiries of a minute event (R31, R152,
R159), the end of a superframe and the peers it finds absent (R172). -/

namespace Sys2Proof.Machine

/-! ### Rollover and completed holds -/

/-- The remaining hold of a CONDITIONING record lowered by one; with none left the record goes to SHELVED, placed or unplaced as it
stood, in the same change (R88, R89). -/
def lowerHold (minute : Nat) (r : Record) : Record :=
  match r.st with
  | .conditioning p h => if h ≤ 1 then r.enter (.shelved p) minute else { r with st := .conditioning p (h - 1) }
  | _ => r

/-- A CONDITIONING record whose remaining hold is at most `n`. -/
def Record.holdWithin (n : Nat) (r : Record) : Bool :=
  match r.st with
  | .conditioning _ h => h ≤ n
  | _ => false

/-- The records that a rollover releases, in ascending order of identifier (R89). -/
def State.releasedHolds (s : State) : List Record := s.custody.register.filter (Record.holdWithin 1)

/-- The CONDITIONING COMPLETE event of a record that is released (R89). -/
def State.completeEvent (s : State) (r : Record) : Event := .conditioningComplete r.id r.st.position r.exposure s.minute

/-- A rollover: the accumulator returns to 0, every CONDITIONING record is lowered and those without a hold left are released, as
one change, then an event for each released (R88, R89). -/
def State.rollover (s : State) : State :=
  ((s.withConditioning ⟨0⟩).setRegister (s.custody.register.map (lowerHold s.minute))).emitAll (s.releasedHolds.map s.completeEvent)

/-- The accumulator gains a running second; the gain that brings it to 60 is the rollover (R88). -/
def State.runningSecond (s : State) : State :=
  if s.conditioning.accumulator + 1 < rolloverSeconds then s.withConditioning ⟨s.conditioning.accumulator + 1⟩ else s.rollover

/-- A record whose hold is spent goes to SHELVED, placed or unplaced as it stood, with its CONDITIONING COMPLETE event (R89). -/
def State.completeHold (s : State) (r : Record) : State :=
  (s.putRecord (r.enter (.shelved r.st.position) s.minute)).emit (s.completeEvent r)

/-- The first record in identifier order that is CONDITIONING with no hold left is released (R89, log 1). -/
def State.completeStep (s : State) : State :=
  match s.custody.register.filter (Record.holdWithin 0) with
  | [] => s
  | r :: _ => s.completeHold r

/-! ### Expiries of a minute event -/

/-- An OPEN manifest whose lifetime has reached 0 (R31). -/
def Manifest.expired (m : Manifest) : Bool := m.state == .waiting && m.lifetime == 0

/-- The numbers, from `base`, of the manifests that have expired, ascending (R31). -/
def expiredFrom (base : Nat) : List (Option Manifest) → List Nat
  | [] => []
  | none :: rest => expiredFrom (base + 1) rest
  | some m :: rest => if m.expired then base :: expiredFrom (base + 1) rest else expiredFrom (base + 1) rest

/-- The expired manifests' numbers, ascending (R31). -/
def State.expiredManifests (s : State) : List Nat := expiredFrom 1 s.custody.manifests

/-- The expired manifest of the lowest number ends (R31). -/
def State.expireManifestStep (s : State) : State :=
  match s.expiredManifests with
  | [] => s
  | number :: _ =>
    match s.manifest? number with
    | none => s
    | some m => s.endManifest number m .expired

/-- A TAKEN entry whose transit limit has reached 0 (R152). -/
def TransferEntry.overdue (e : TransferEntry) : Bool :=
  match e.state with
  | .taken limit => limit == 0
  | .offered _ => false
  | .awaitingArrival _ => false

/-- An IN entry whose transit limit has reached 0 (R159). -/
def TransferEntry.abandoned (e : TransferEntry) : Bool :=
  match e.state with
  | .awaitingArrival limit => limit == 0
  | .offered _ => false
  | .taken _ => false

/-- A TAKEN entry expires: the record becomes SUSPECT TRANSIT LOST, the entry is freed, and SUSPECT ENTRY and TRANSIT
OVERDUE are emitted in that order (R152). -/
def State.expireTransit (s : State) (e : TransferEntry) : State :=
  match s.find e.id with
  | none => (s.eraseEntry e.id).emit (.transitOverdue e.id e.peer e.number s.minute)
  | some r =>
    let lost := loseRecord .transitLost s.minute r
    ((s.putRecord lost).eraseEntry e.id).emitAll
      [.suspectEntry e.id .transitLost lost.st.hold, .transitOverdue e.id e.peer e.number s.minute]

/-- The entry that expires next among those due, or the one named (log 12). -/
def State.expireOneTransit (s : State) : State :=
  match s.choose (s.transfer.entries.filter TransferEntry.overdue) with
  | (some e, t) => t.expireTransit e
  | (none, t) => t

/-- An IN entry expires: the INBOUND record is deleted and the entry freed, outcome ABANDONED (R159). -/
def State.abandonOne (s : State) : State :=
  match s.choose (s.transfer.entries.filter TransferEntry.abandoned) with
  | (some e, t) => t.dropCartridge e .abandoned
  | (none, t) => t

/-! ### Superframe end and absent peers -/

/-- The superframe end at one entry (R172): one not heard has its count raised, holding at 3, and every one is marked not
heard. -/
def PeerEntry.superframe (own : Bool) (p : PeerEntry) : PeerEntry :=
  { p with missed := if own || p.heard then p.missed else min (p.missed + 1) missedLimit, heard := false }

/-- The superframe end over the peer table, the own entry not judged (R172). -/
def superframeFrom (own base : Nat) : List PeerEntry → List PeerEntry
  | [] => []
  | p :: rest => p.superframe (base == own) :: superframeFrom own (base + 1) rest

/-- The superframe end, once, when the own cycle number has become 0 (R163, R172). -/
def State.superframeStep (s : State) : State :=
  if s.line.superframeDue then
    s.withLine { s.line with superframeDue := false, peers := superframeFrom s.line.address 0 s.line.peers }
  else s

/-- The entry of a station in the peer table (R172). -/
def State.peer (s : State) (address : Nat) : Option PeerEntry := s.line.peers[address]?

/-- The peer table with another entry for a station. -/
def State.setPeer (s : State) (address : Nat) (p : PeerEntry) : State :=
  s.withLine { s.line with peers := s.line.peers.set address p }

/-- A peer whose missed-superframe count has reached 3 and that is not yet ABSENT (R172). -/
def PeerEntry.gone (p : PeerEntry) : Bool := missedLimit ≤ p.missed && p.presence != .absent

/-- A peer becomes ABSENT, with a PEER PRESENCE event if it was PRESENT, and the flag is judged afresh (R136, R172). -/
def State.makeAbsent (s : State) (address : Nat) : State :=
  match s.peer address with
  | none => s
  | some p =>
    if p.gone && address != s.line.address then
      let marked := s.setPeer address { p with presence := .absent }
      let reported := if p.presence = .present then marked.emit (.peerPresence address .absent none) else marked
      reported.judgeNeighbours
    else s

/-- The addresses, from `base`, of the peers found gone, the own entry not judged (R172). -/
def goneFrom (own base : Nat) : List PeerEntry → List Nat
  | [] => []
  | p :: rest => if p.gone && base != own then base :: goneFrom own (base + 1) rest else goneFrom own (base + 1) rest

/-- The peers found gone. -/
def State.gonePeers (s : State) : List Nat := goneFrom s.line.address 0 s.line.peers

/-- One of the peers found gone becomes ABSENT (log 12). -/
def State.absentOne (s : State) : State :=
  match s.choose s.gonePeers with
  | (some address, t) => t.makeAbsent address
  | (none, t) => t

/-! ### Settling -/

/-- No follow-on step is due. -/
def State.settled (s : State) : Bool :=
  s.expiredManifests.isEmpty && (s.transfer.entries.filter TransferEntry.overdue).isEmpty &&
    (s.transfer.entries.filter TransferEntry.abandoned).isEmpty && !s.line.superframeDue && s.gonePeers.isEmpty

/-- The expired manifests ended, in ascending number (R31). -/
def State.settleManifests (s : State) : State := repeatStep State.expireManifestStep s.expiredManifests.length s

/-- The overdue outbound transfers ended (R152). -/
def State.settleTransits (s : State) : State :=
  repeatStep State.expireOneTransit (s.transfer.entries.filter TransferEntry.overdue).length s

/-- The abandoned inbound transfers ended (R159). -/
def State.settleInbound (s : State) : State :=
  repeatStep State.abandonOne (s.transfer.entries.filter TransferEntry.abandoned).length s

/-- The absent peers marked (R172). -/
def State.settlePeers (s : State) : State := repeatStep State.absentOne s.gonePeers.length s

/-- Every follow-on step that is due, taken: what the rules place in the same step as its cause stands complete before
any other command is taken (log 1). -/
def State.settle (s : State) : State :=
  s.settleManifests.settleTransits.settleInbound.superframeStep.settlePeers

/-- The outcome of a command that is not a follow-on step: its effect on the settled state. -/
def taken (s : State) (effect : State → State) : Host.Outcome State Fault Refusal := .next (effect s.settle)

end Sys2Proof.Machine
end

