-- ==== Sys2Proof/Machine/Requests.lean ====
section
/-! DEFINITION. The taking of a request from the request queue: the request unit's own checks, the owner's reply and the
one answer (R177, R178), with the meaning of UNKNOWN_REQUEST and of the custodian key. -/

namespace Sys2Proof.Machine

/-- What an owner gives back for a request: the state it leaves, the result, and the content of a DONE answer. -/
structure Reply where
  state   : State
  result  : Result
  content : List Byte

/-- A reply that changes nothing and carries the result alone. -/
def State.refuse (s : State) (r : Result) : Reply := ⟨s, r, []⟩

/-- A request done, with no content. -/
def State.doneReply (s : State) : Reply := ⟨s, .done, []⟩

/-- The request that may be taken: the head of the queue, while the answer queue has a free place and no taken RESET waits
(R177, R184). -/
def State.headRequest (s : State) : Option Request :=
  if s.request.resetWait.isSome || !s.answerRoom then none else s.line.requests.head?

/-- The state with the head request removed from its queue. -/
def State.popRequest (s : State) : State := s.withLine { s.line with requests := s.line.requests.drop 1 }

/-- The checks of R178 after the kind, in their order; a request that passes them goes to its owner. -/
def judgeRequest (kind : RequestKind) (owner : Request → State → Reply) (r : Request) (s : State) : Reply :=
  if !s.configured && kind != .configure && kind != .queryZone then s.refuse .notConfigured
  else if kind.custodial && !s.pins.keyOn then s.refuse .notAuthorized
  else if !layoutWhole kind (requestFields r.payload) then s.refuse .malformed
  else owner r s

/-- The one answer to a request: its tag, its kind byte, the result and the content, addressed to its sender (R177). -/
def answerFor (kind : Byte) (r : Request) (reply : Reply) : Answer := ⟨r.sender, r.tag, kind, reply.result, reply.content⟩

/-- A request of a kind is taken as one event, if it is the one at the head and the row is its own: removed, judged, acted
on and answered (R177). -/
def State.takeRequest (s : State) (kind : RequestKind) (fits : List Byte → Bool) (owner : Request → State → Reply) : State :=
  match s.headRequest with
  | none => s
  | some r =>
    if requestKindOf r.payload = some kind ∧ fits (requestFields r.payload) then
      let reply := judgeRequest kind owner r s.popRequest
      reply.state.queueAnswer (answerFor (BitVec.ofNat 8 (requestKindCode kind)) r reply)
    else s

/-- Every request of the kind is the row's own. -/
def anyFields (_ : List Byte) : Bool := true

/-- A request whose kind is none of the fifteen is answered UNKNOWN REQUEST; where its payload is empty the kind byte of
the answer is a free value (R178, log 9). -/
def State.takeUnknown (s : State) : State :=
  match s.headRequest with
  | none => s
  | some r =>
    match requestKindOf r.payload with
    | some _ => s
    | none =>
      match r.payload with
      | [] => (s.popRequest.queueAnswer ⟨r.sender, r.tag, Config.missingKindByte s.free, .unknownRequest, []⟩).withFree (s.free + 1)
      | b :: _ => s.popRequest.queueAnswer ⟨r.sender, r.tag, b, .unknownRequest, []⟩

/-- UNKNOWN_REQUEST (R178). -/
def execUnknownRequest (s : State) : Host.Outcome State Fault Refusal := taken s State.takeUnknown

/-- KEY_TURN: the key's position from now on (R179). -/
def execKeyTurn (on : Bool) (s : State) : Host.Outcome State Fault Refusal :=
  taken s fun t => t.withPins { t.pins with keyOn := on }

end Sys2Proof.Machine
end

