-- ==== Sys2Proof/Machine/Climate.lean ====
section
/-! DEFINITION. The climate unit: poll rounds and probe records, the formation of the zone value with its spread, band and
outputs, the zone report and the excursion clear (R97 to R112). -/

namespace Sys2Proof.Machine

/-! ### Probe records -/

/-- The state with another record of a probe. -/
def State.setProbe (s : State) (probe : Nat) (p : ProbeRecord) : State :=
  s.withClimate { s.climate with probes := setEntry 1 s.climate.probes probe p }

/-- The record of a probe (R96). -/
def State.probe (s : State) (probe : Nat) : Option ProbeRecord := entryAt 1 s.climate.probes probe

/-- The age of a probe's last valid reading in seconds (R100). -/
def ProbeRecord.age (p : ProbeRecord) (roundStart : Nat) : Nat := roundStart - p.stamp

/-- The record after a valid reading (R100). -/
def ProbeRecord.hear (roundStart : Nat) (r : Reading) : ProbeRecord := ⟨.valid, some r, roundStart, true⟩

/-- The record after a miss (R100). -/
def ProbeRecord.miss (p : ProbeRecord) (roundStart : Nat) : ProbeRecord :=
  match p.state with
  | .failed => p
  | _ => if p.age roundStart ≤ staleLimit then { p with state := .stale } else { p with state := .failed, reading := none }

/-- The PROBE event of an exchange's outcome: into FAILED with the reading discarded, or out of FAILED but for the first valid
reading after a reset (R101). -/
def probeEvent (probe : Nat) (before after : ProbeRecord) : List Event :=
  match before.state, after.state with
  | .failed, .valid =>
    match before.heard, after.reading with
    | true, some r => [.probe probe .valid r]
    | _, _ => []
  | .failed, _ => []
  | _, .failed =>
    match before.reading with
    | some r => [.probe probe .failed r]
    | none => []
  | _, _ => []

/-! ### Formation of the zone value -/

/-- The numbers of the usable probes that gave an RH. -/
def probesAt (readings : List (Nat × Reading)) (rh : Nat) : List Nat := (readings.filter fun r => r.2.rh == rh).map (·.1)

/-- The highest RH of the readings. -/
def highestRh (readings : List (Nat × Reading)) : Nat := (readings.map fun r => r.2.rh).foldl max 0

/-- The lowest RH of the readings. -/
def lowestRh (readings : List (Nat × Reading)) : Nat := (readings.map fun r => r.2.rh).foldl min (highestRh readings)

/-- The PROBE event of a spread that becomes high: the RH spread, and a probe of the highest and one of the lowest RH; where several probes
gave the highest or the lowest, which of them it names is a free choice (R101, R103, log 11). -/
def State.emitSpread (s : State) : State :=
  match s.choose (probesAt s.usable (highestRh s.usable)) with
  | (none, t) => t
  | (some highest, t) =>
    match t.choose (probesAt s.usable (lowestRh s.usable)) with
    | (none, u) => u
    | (some lowest, u) => u.emit (.spreadHigh (highestRh s.usable - lowestRh s.usable) highest lowest)

/-- Whether the RH spread is high (R103). -/
def State.spreadJudged (s : State) : Bool :=
  match rhSpreadOf s.usable with
  | some d => spreadLimit < d
  | none => false

/-- The spread state judged, with the event of a change to high (R103). -/
def State.judgeSpread (s : State) : State :=
  let judged := s.withClimate { s.climate with spreadHigh := s.spreadJudged }
  if s.spreadJudged && !s.climate.spreadHigh then judged.emitSpread else judged

/-- The zone value formed from the usable probes (R102); an UNKNOWN one turns the outputs OFF (R107). -/
def State.formZone (s : State) : State :=
  (s.withClimate { s.climate with zone := zoneValueOf s.usable }).forceOutputs

/-- The band state judged, with the ZONE BAND event of a change (R104). -/
def State.judgeBand (s : State) : State :=
  if s.bandJudged = s.climate.inBand then s
  else (s.withClimate { s.climate with inBand := s.bandJudged }).emit (.zoneBand s.bandJudged s.climate.zone)

/-- One output decided: ON goes OFF on its off-condition, OFF goes ON on its on-condition once its minimum-off time has passed,
and otherwise it keeps its state (R105, R106). -/
def ClimateOutput.decide (now : Nat) (turnsOn turnsOff : Bool) (o : ClimateOutput) : ClimateOutput :=
  if o.on then (if turnsOff then ⟨false, some now⟩ else o)
  else if turnsOn && minimumOffPassed now o then { o with on := true }
  else o

/-- The outputs decided on the zone RH while no forcing condition holds (R105, R107). -/
def State.decideOutputs (s : State) : State :=
  match s.forcing, s.climate.zone with
  | false, some z =>
    let set := s.cfg.rhSet
    let band := s.cfg.controlBand
    s.withClimate { s.climate with
      humidify := s.climate.humidify.decide s.now (z.rh + band < set) (set ≤ z.rh),
      dehumidify := s.climate.dehumidify.decide s.now (set + band < z.rh) (z.rh ≤ set) }
  | _, _ => s

/-- The zone value formed, its spread and band judged, the outputs not yet decided (R102 to R104, R113). -/
def State.formation (s : State) : State := s.judgeSpread.formZone.judgeBand

/-! ### Poll rounds -/

/-- A probe asked in a round (R98): from now on its answers are those to this asking. -/
def State.ask (s : State) (probe : Nat) (events : List Event) : State :=
  s.withClimate { s.climate with round := some ⟨probe, s.now, events⟩, late := s.climate.late.filter (· ≠ probe) }

/-- A poll round starts once the round timer has run out, and 2 s after the round before it by that timer: its start time, and the
first polled probe asked (R98). With a round in progress, as the rounds' spacing never gives, it has no effect (log 21). -/
def State.startRound (s : State) : State :=
  match s.climate.round with
  | some _ => s
  | none =>
    if s.climate.nextRound ≤ s.now then
      (s.withClimate { s.climate with roundStart := s.climate.roundStart + roundSpacing,
                                      nextRound := s.climate.nextRound + roundTime }).ask 1 []
    else s

/-- The round ends: its held events, then the formation and the decision of the outputs (R98, R101, R102, R105). -/
def State.endRound (s : State) (events : List Event) : State :=
  ((s.withClimate { s.climate with round := none }).emitAll events).formation.decideOutputs

/-- The probe's exchange has ended: the next polled probe is asked, or the round ends (R98). -/
def State.nextProbe (s : State) (asked : Nat) (events : List Event) : State :=
  if s.polled (asked + 1) then s.ask (asked + 1) events else s.endRound events

/-- A probe's record after its exchange (R100). -/
def ProbeRecord.judged (p : ProbeRecord) (roundStart : Nat) (answer : Option Reading) : ProbeRecord :=
  match answer with
  | some r => ProbeRecord.hear roundStart r
  | none => p.miss roundStart

/-- The exchange with the asked probe ends in a valid reading or a miss (R99, R100); a probe no longer polled keeps its record
(R98). -/
def State.endProbe (s : State) (round : PollRound) (answer : Option Reading) : State :=
  match s.polled round.asked, s.probe round.asked with
  | true, some p =>
    let after := p.judged s.climate.roundStart answer
    (s.setProbe round.asked after).nextProbe round.asked (round.events ++ probeEvent round.asked p after)
  | _, _ => s.nextProbe round.asked round.events

/-- Whether an answer comes late: the asked probe's 200 ms have run out, or it names another probe whose own exchange has ended with
no answer taken. An answer that shows neither is judged as the asked probe's, for the spec gives no mark that tells one exchange's
answer from another's. DEDUCED (R98, R114, log 35). -/
def State.answersLate (s : State) (round : PollRound) (bytes : List Byte) : Bool :=
  decide (round.askedAt + probeLimit < s.now) ||
    match answeringProbe bytes with
    | some probe => probe != round.asked && s.climate.late.contains probe
    | none => false

/-- A probe's answer: the asked probe's exchange ends with it; a late one, or one with no round in progress, is discarded (R98, R99,
R114). -/
def State.hearProbe (s : State) (bytes : List Byte) : State :=
  match s.climate.round with
  | none => s
  | some round => if s.answersLate round bytes then s else s.endProbe round (probeReading round.asked bytes)

/-- The asked probe's 200 ms run out: a miss, after which its answer would come late (R98, R99). -/
def State.probeTimesOut (s : State) : State :=
  match s.climate.round with
  | none => s
  | some round => (s.withClimate { s.climate with late := round.asked :: s.climate.late }).endProbe round none

/-! ### The zone report and the excursion clear -/

/-- The eight bytes of a probe in the zone report (11.3); polled is 1. DESIGN CHOICE (R111, log 45). -/
def probeReportBytes (polled : Bool) (roundStart : Nat) (p : ProbeRecord) : List Byte :=
  [flagByte polled, BitVec.ofNat 8 (probeStateCode p.state)] ++
    match p.reading with
    | some r => readingBytes r ++ toBytes 2 (p.age roundStart)
    | none => List.replicate 6 0

/-- The reports of the probes, from number `base`. -/
def probesReportFrom (polled : Nat → Bool) (roundStart base : Nat) : List ProbeRecord → List Byte
  | [] => []
  | p :: rest => probeReportBytes (polled base) roundStart p ++ probesReportFrom polled roundStart (base + 1) rest

/-- The seconds of minimum-off time that an OFF output has left; whether a part of a second counts as one is free (R111,
log 10). -/
def offSecondsLeft (now : Nat) (partCounts : Bool) (o : ClimateOutput) : Nat :=
  match o.on, o.offAt with
  | false, some t => (minimumOff - (now - t) + if partCounts then 999 else 0) / 1000
  | _, _ => 0

/-- The two bytes of an output in the zone report (11.3); ON is 1. DESIGN CHOICE (R111, log 45). -/
def outputReportBytes (now : Nat) (partCounts : Bool) (o : ClimateOutput) : List Byte :=
  [flagByte o.on, BitVec.ofNat 8 (offSecondsLeft now partCounts o)]

/-- The zone report of 51 bytes (R111, 11.3). The band state is coded as in the beacon, OUT OF BAND 0 and IN BAND 1, although R96 and R111
list IN BAND first; the other bytes of two values for which 11.3 gives no code, those of `probeReportBytes` and `outputReportBytes` too,
are 1 where what their name says holds. DESIGN CHOICE (R111, 11.3, log 45). -/
def State.zoneReport (s : State) (partCounts : Bool) : List Byte :=
  [flagByte s.configured, flagByte s.climate.zone.isSome] ++
    (match s.climate.zone with
    | some z => readingBytes z
    | none => [0, 0, 0, 0]) ++
    [flagByte s.climate.inBand, flagByte s.climate.spreadHigh] ++ toBytes 2 ((rhSpreadOf s.usable).getD 0) ++
    probesReportFrom s.polled s.climate.roundStart 1 s.climate.probes ++
    outputReportBytes s.now partCounts s.climate.humidify ++ outputReportBytes s.now partCounts s.climate.dehumidify ++
    [flagByte s.forcing] ++ toBytes 3 s.climate.account ++ [flagByte s.climate.latch]

/-- QUERY ZONE: the report; it changes nothing of the unit (R111). -/
def queryZoneReply (_ : Request) (s : State) : Reply :=
  ⟨s.withFree (s.free + 1), .done, s.zoneReport (Config.partSecondCounts s.free)⟩

/-- EXCURSION CLEAR: the account 0 and the latch clear (R110). -/
def excursionClearReply (_ : Request) (s : State) : Reply :=
  (s.withClimate { s.climate with account := 0, latch := false }).doneReply

/-! ### Meanings -/

/-- QUERY_ZONE (R111). -/
def execQueryZone (s : State) : Host.Outcome State Fault Refusal :=
  taken s fun t => t.takeRequest .queryZone anyFields queryZoneReply

/-- EXCURSION_CLEAR (R110). -/
def execExcursionClear (s : State) : Host.Outcome State Fault Refusal :=
  taken s fun t => t.takeRequest .excursionClear anyFields excursionClearReply

/-- POLL_ROUND (R98). -/
def execPollRound (s : State) : Host.Outcome State Fault Refusal := taken s State.startRound

/-- PROBE_ANSWER (R99). -/
def execProbeAnswer (bytes : List Byte) (s : State) : Host.Outcome State Fault Refusal :=
  taken s fun t => t.hearProbe bytes

/-- PROBE_ANSWER_TIMEOUT (R99). -/
def execProbeAnswerTimeout (s : State) : Host.Outcome State Fault Refusal := taken s State.probeTimesOut

end Sys2Proof.Machine
end

