-- ==== Sys2Proof/Machine/Configure.lean ====
section
/-! DEFINITION. CONFIGURE: the clamping and filtering of its items, and what its acceptance changes in every block (R113,
R142, R181 to R183, R188, R190). -/

namespace Sys2Proof.Machine

/-! ### Numeric items (R182) -/

/-- A numeric item of R182: its number, its range and its default. -/
structure NumericItem where
  item : Nat
  low  : Nat
  high : Nat
  dflt : Nat

/-- The numeric items of R182. -/
def numericItems : List NumericItem :=
  [ ⟨1, 200, 600, 400⟩,           -- RH set point
    ⟨2, 10, 150, 50⟩,             -- RH band
    ⟨3, 100, 300, 180⟩,           -- temperature set point
    ⟨4, 5, 100, 30⟩,              -- temperature band
    ⟨5, 5, 100, 20⟩,              -- control band
    ⟨6, 1, 4, 4⟩,                 -- probe count
    ⟨7, 0, 2600, 100⟩,            -- uncovered weight U
    ⟨8, 1, 65535, 128⟩,           -- divisor K
    ⟨9, 0, 1440, 60⟩,             -- base hold
    ⟨10, 60, 10080, 10080⟩,       -- hold ceiling C
    ⟨11, 0, 16777215, 500000⟩,    -- exposure limit Q
    ⟨12, 1, 16777215, 100000⟩,    -- excursion limit
    ⟨15, 10, 60, 30⟩,             -- pre-discharge time
    ⟨16, 300, 3600, 600⟩,         -- soak time
    ⟨18, 1, 1440, 240⟩,           -- manifest lifetime
    ⟨19, 30, 300, 120⟩,           -- authorisation wait
    ⟨20, 1, 10, 3⟩,               -- offer wait
    ⟨21, 1, 240, 30⟩ ]            -- transit limit

/-- A value clamped to the nearer end of a range (R182). -/
def clampTo (low high : Nat) (v : Int) : Nat := if v < low then low else if (high : Int) < v then high else v.toNat

/-- The last entry of an item, the one it takes (R190). -/
def lastEntry (entries : List ConfigEntry) (item : Nat) : Option ConfigEntry :=
  (entries.filter fun e => e.item == item).getLast?

/-- The value of a numeric item: clamped where present, its default where absent (R182). -/
def NumericItem.value (n : NumericItem) (entries : List ConfigEntry) : Nat :=
  match lastEntry entries n.item with
  | none => n.dflt
  | some e => clampTo n.low n.high e.value

/-- Whether a numeric item was clamped (R182). -/
def NumericItem.clamped (n : NumericItem) (entries : List ConfigEntry) : Bool :=
  match lastEntry entries n.item with
  | none => false
  | some e => (clampTo n.low n.high e.value : Int) != e.value

/-- The value of the numeric item of a number. -/
def numericValue (entries : List ConfigEntry) (item : Nat) : Nat :=
  match numericItems.find? fun n => n.item == item with
  | none => 0
  | some n => n.value entries

/-! ### Detector groups and manual confirms (R182, R190) -/

/-- The group of a code, if it is one of the three choices (R190). -/
def groupOf : Nat → Option Group
  | 0 => some .a
  | 1 => some .b
  | 2 => some .unused
  | _ => none

/-- One detector-group entry applied: a channel outside 0 to 7 is ignored, and a group that is none of the three takes the
channel's default (R182, R190). -/
def applyGroup (groups : List Group) (e : ConfigEntry) : List Group :=
  if e.third ≤ 7 then groups.set e.third ((groupOf e.fourth).getD (defaultGroups.getD e.third .unused)) else groups

/-- The group assignment that the entries give (R182). -/
def groupsFrom (entries : List ConfigEntry) : List Group := (entries.filter fun e => e.item == 13).foldl applyGroup defaultGroups

/-- Whether a detector-group entry was defaulted or ignored (R182, R190). -/
def groupChanged (e : ConfigEntry) : Bool := 7 < e.third || (groupOf e.fourth).isNone

/-- Manual confirms: 1 is yes, 0 is no, and any other value the default, yes (R182, R190). -/
def manualConfirmsFrom (entries : List ConfigEntry) : Bool :=
  match lastEntry entries 14 with
  | none => true
  | some e => e.value != 0

/-- Whether manual confirms was defaulted (R182). -/
def manualConfirmsChanged (entries : List ConfigEntry) : Bool :=
  match lastEntry entries 14 with
  | none => false
  | some e => e.value != 0 && e.value != 1

/-! ### Neighbours (R183) -/

/-- The neighbour entries given, in their order. -/
def neighbourEntries (entries : List ConfigEntry) : List Int := (entries.filter fun e => e.item == 17).map (·.value)

/-- One neighbour entry kept or dropped (R183). -/
def keepNeighbour (own sender : Nat) (kept : List Nat) (v : Int) : List Nat :=
  if 0 ≤ v ∧ v ≤ 15 ∧ v ≠ own ∧ v ≠ sender ∧ v.toNat ∉ kept then kept ++ [v.toNat] else kept

/-- The neighbour list kept of the first four entries (R183). -/
def neighboursFrom (own sender : Nat) (entries : List ConfigEntry) : List Nat :=
  ((neighbourEntries entries).take 4).foldl (keepNeighbour own sender) []

/-- Whether a neighbour entry was dropped or not read (R183). -/
def neighboursChanged (own sender : Nat) (entries : List ConfigEntry) : Bool :=
  (neighboursFrom own sender entries).length != (neighbourEntries entries).length

/-! ### Notice levels (R183, R185) -/

/-- The level byte of OFF (R190). -/
def offLevel : Nat := 255

/-- The level that an entry gives a source: fixed where the range is one level, OFF or its default for OFF, otherwise the
nearer level of the range (R183, R185). -/
def levelFor (row : SourceRow) (given : Nat) : Option Nat :=
  if row.low = row.high then some row.low
  else if given = offLevel then (if row.off then none else some row.dflt)
  else some (max row.low (min row.high given))

/-- The level as given, none for OFF. -/
def givenLevel (given : Nat) : Option Nat := if given = offLevel then none else some given

/-- One notice-level entry applied; a source outside 0 to 15 is ignored (R183, R190). -/
def applyLevel (levels : List (Option Nat)) (e : ConfigEntry) : List (Option Nat) :=
  match sourceTable[e.third]? with
  | none => levels
  | some row => levels.set e.third (levelFor row e.fourth)

/-- The notice levels that the entries give (R183). -/
def levelsFrom (entries : List ConfigEntry) : List (Option Nat) :=
  (entries.filter fun e => e.item == 22).foldl applyLevel defaultLevels

/-- Whether a notice-level entry was ignored or taken as another level (R183, R190). -/
def levelChanged (e : ConfigEntry) : Bool :=
  match sourceTable[e.third]? with
  | none => true
  | some row => levelFor row e.fourth != givenLevel e.fourth

/-! ### The record and the answer -/

/-- The configuration record that a CONFIGURE's entries give (R181 to R183). -/
def configFrom (own sender : Nat) (entries : List ConfigEntry) : ConfigRecord where
  rhSet := numericValue entries 1
  rhBand := numericValue entries 2
  tempSet := numericValue entries 3
  tempBand := numericValue entries 4
  controlBand := numericValue entries 5
  probeCount := numericValue entries 6
  uncovered := numericValue entries 7
  divisor := numericValue entries 8
  baseHold := numericValue entries 9
  ceiling := numericValue entries 10
  exposureLimit := numericValue entries 11
  excursionLimit := numericValue entries 12
  groups := groupsFrom entries
  manualConfirms := manualConfirmsFrom entries
  preDischarge := numericValue entries 15
  soakTime := numericValue entries 16
  neighbours := neighboursFrom own sender entries
  manifestLifetime := numericValue entries 18
  authWait := numericValue entries 19
  offerWait := numericValue entries 20
  transitLimit := numericValue entries 21
  levels := levelsFrom entries

/-- Whether an item was clamped, defaulted or filtered (R181 to R183). Item 13 is named for a group code that is no choice also where a
later entry for the same channel supersedes it. DEDUCED (log 39). An item of a choice that took its default because its value is none of
its choices (13, 14) is named like a clamped one, of which alone R182 says so. DESIGN CHOICE (R181, R182, log 44). -/
def itemChanged (own sender : Nat) (entries : List ConfigEntry) (item : Nat) : Bool :=
  (numericItems.any fun n => n.item == item && n.clamped entries) ||
    (item == 13 && (entries.any fun e => e.item == 13 && groupChanged e)) ||
    (item == 14 && manualConfirmsChanged entries) || (item == 17 && neighboursChanged own sender entries) ||
    (item == 22 && (entries.any fun e => e.item == 22 && levelChanged e))

/-- The items that the answer names, each once, in ascending number (R181, 11.3, log 18). -/
def namedItems (own sender : Nat) (entries : List ConfigEntry) : List Nat :=
  ((List.range 22).map (· + 1)).filter (itemChanged own sender entries)

/-! ### The acceptance -/

/-- The neighbour flags set from the list, from address `base` (R172). -/
def flagNeighbours (neighbours : List Nat) (base : Nat) : List PeerEntry → List PeerEntry
  | [] => []
  | p :: rest => { p with neighbour := neighbours.contains base } :: flagNeighbours neighbours (base + 1) rest

/-- The line unit's change (R172, R181). -/
def State.configureLine (s : State) : State :=
  s.withLine { s.line with peers := flagNeighbours s.cfg.neighbours 0 s.line.peers }

/-- A pending notice that an OFF source may keep: one whose slot runs (R188). -/
def keepIfSending (n : Option PendingNotice) : Option PendingNotice :=
  match n with
  | none => none
  | some p => if p.sending then some p else none

/-- The pending notices once the levels are taken (R188). -/
def dropOff (levels : List (Option Nat)) (pending : List (Option PendingNotice)) : List (Option PendingNotice) :=
  List.zipWith (fun level n => if level.isSome then n else keepIfSending n) levels pending

/-- The notice unit's change: the pending notices of the sources now OFF removed, but for one being sent (R188). -/
def State.configureNotices (s : State) : State := s.withNotices ⟨dropOff s.cfg.levels s.notices.pending⟩

/-- A probe numbered above the configured count: FAILED, its reading discarded, with the PROBE event of one that held a
reading (R97, R101). -/
def State.dropProbe (s : State) (probe : Nat) : State :=
  match s.probe probe, s.polled probe with
  | some p, false =>
    let failed : ProbeRecord := { p with state := .failed, reading := none }
    (s.setProbe probe failed).emitAll (probeEvent probe p failed)
  | _, _ => s

/-- Whether an event held to the end of the round is still to be emitted: not the VALID of a probe that is no longer polled, whose
answer is discarded (R98, log 21). -/
def State.staysHeld (s : State) (e : Event) : Bool :=
  match e with
  | .probe k .valid _ => s.polled k
  | _ => true

/-- The events held for the round in progress, without those of the answers that are discarded (R98). -/
def State.dropHeld (s : State) : State :=
  s.withClimate { s.climate with round := s.climate.round.map fun r => { r with events := r.events.filter s.staysHeld } }

/-- The climate unit's change: the probes above the count dropped, in ascending number and before the spread is judged, an order that R101
gives for the events of a round alone, then a formation without a decision of the outputs (R97, R98, R113). DEDUCED (log 42). -/
def State.configureClimate (s : State) : State := ([1, 2, 3, 4].foldl State.dropProbe s).dropHeld.formation

/-- The channels in FAULT that the assignment takes from UNUSED to A or B, ascending (R142). -/
def State.newFaults (s : State) (before : List Group) : List Nat :=
  s.faultChannels.filter fun c => before.getD c .unused == .unused

/-- The fire unit's change: the neighbour-alert flag judged, the newly grouped faults reported, the sequence evaluated (R142). -/
def State.configureFire (s : State) (before : List Group) : State :=
  let judged := s.judgeNeighbours
  (judged.emitAll ((judged.newFaults before).map judged.faultEvent)).evaluate

/-- The acceptance of a CONFIGURE, in one change (R181). -/
def State.acceptConfigure (s : State) (config : ConfigRecord) (sender : Nat) : State :=
  let set := s.withRequest { s.request with config := some config, gateway := some sender }
  set.configureLine.configureNotices.configureClimate.configureFire s.cfg.groups

/-- CONFIGURE (R181). -/
def configureReply (r : Request) (s : State) : Reply :=
  if s.configured then s.refuse .alreadyConfigured
  else
    let entries := configEntries (requestFields r.payload)
    ⟨s.acceptConfigure (configFrom s.line.address r.sender entries) r.sender, .done,
      listBytes (namedItems s.line.address r.sender entries)⟩

/-- CONFIGURE (R181). -/
def execConfigure (s : State) : Host.Outcome State Fault Refusal :=
  taken s fun t => t.takeRequest .configure anyFields configureReply

end Sys2Proof.Machine
end

