-- ==== Sys2Proof/Machine/Custody.lean ====
section
/-! DEFINITION. The requests on single records: ENROL, RETIRE, SHELVE, QUERY RECORD and the three dispositions of RELEASE
SUSPECT (R15 to R22, R158). -/

namespace Sys2Proof.Machine

/-- ENROL: form, then absence of the identifier, then room; a placed SHELVED record is created (R15). -/
def enrolReply (r : Request) (s : State) : Reply :=
  let fields := requestFields r.payload
  let id := slice fields 0 10
  match identOk id, positionAt fields 10 with
  | true, some p =>
    if s.known id then s.refuse .duplicate
    else if registerCapacity ≤ s.occupancy then s.refuse .registerFull
    else (s.putRecord ⟨id, .shelved (some p), none, false, s.minute⟩).doneReply
  | _, _ => s.refuse .malformed

/-- RETIRE: a SHELVED record is deleted (R16). -/
def retireReply (r : Request) (s : State) : Reply :=
  let id := slice (requestFields r.payload) 0 10
  if identOk id then
    match s.find id with
    | none => s.refuse .noSuchRecord
    | some x =>
      match x.st with
      | .shelved _ => (s.eraseRecord id).doneReply
      | _ => s.refuse .wrongState
  else s.refuse .malformed

/-- SHELVE of an INBOUND record completes the arrival in one change: placed, CONDITIONING with the carried hold lowered to
the ceiling or SHELVED without one, the IN entry freed, and an ARRIVED queued to the sender (R90, R158). -/
def State.completeArrival (s : State) (x : Record) (peer : PeerField) (carried : Option Nat) (p : Position) : State :=
  let st : RecState := match carried with
    | none => .shelved (some p)
    | some h => .conditioning (some p) (min h s.cfg.ceiling)
  ((s.putRecord (x.enter st s.minute)).eraseEntry x.id).queuePeer ⟨peer.station, .arrived x.id peer.number⟩

/-- SHELVE: the position set on a SHELVED, CONDITIONING or SUSPECT record, every other field kept, or an inbound arrival
completed (R17, R158). -/
def shelveReply (r : Request) (s : State) : Reply :=
  let fields := requestFields r.payload
  let id := slice fields 0 10
  match identOk id, positionAt fields 10 with
  | true, some p =>
    match s.find id with
    | none => s.refuse .noSuchRecord
    | some x =>
      match x.st with
      | .shelved _ => (s.putRecord { x with st := .shelved (some p) }).doneReply
      | .conditioning _ h => (s.putRecord { x with st := .conditioning (some p) h }).doneReply
      | .suspect _ advised reason => (s.putRecord { x with st := .suspect (some p) advised reason }).doneReply
      | .inbound peer carried =>
        if s.peerRoom then (s.completeArrival x peer carried p).doneReply else s.refuse .queueFull
      | _ => s.refuse .wrongState
  | _, _ => s.refuse .malformed

/-- QUERY RECORD: the whole record as it stands (R18). -/
def queryRecordReply (r : Request) (s : State) : Reply :=
  let id := slice (requestFields r.payload) 0 10
  if identOk id then
    match s.find id with
    | none => s.refuse .noSuchRecord
    | some x => ⟨s, .done, recordBytes x⟩
  else s.refuse .malformed

/-- The form of a RELEASE SUSPECT: identifier well formed, disposition one of the three, a given position in range (R19). -/
def releaseFormOk (f : ReleaseFields) : Bool :=
  identOk f.id && (f.disposition == 1 || f.disposition == 2 || f.disposition == 3) && (!f.positionGiven || f.slot ≤ 63)

/-- The checks that the three dispositions share (R19); the record that passes them goes on with its disposition. -/
def releaseChecked (r : Request) (s : State)
    (go : ReleaseFields → Record → Option Position → Option Nat → Reply) : Reply :=
  let f := releaseOf (requestFields r.payload)
  if releaseFormOk f then
    match s.find f.id with
    | none => s.refuse .noSuchRecord
    | some x =>
      match x.st with
      | .suspect position advised _ => go f x position advised
      | _ => s.refuse .wrongState
  else s.refuse .malformed

/-- The SHELVE disposition: to SHELVED at the given position, or the one held; MALFORMED with neither (R20). -/
def releaseShelveReply (r : Request) (s : State) : Reply :=
  releaseChecked r s fun f x position _ =>
    match if f.positionGiven then some ⟨f.rack, f.slot⟩ else position with
    | none => s.refuse .malformed
    | some p => (s.putRecord (x.enter (.shelved (some p)) s.minute)).doneReply

/-- The CONDITION disposition: the given hold, else the advised hold, else 0, lowered to the ceiling; to CONDITIONING with
1 or more, to SHELVED with 0 (R21). -/
def releaseConditionReply (r : Request) (s : State) : Reply :=
  releaseChecked r s fun f x position advised =>
    let hold := min ((f.hold.or advised).getD 0) s.cfg.ceiling
    let st : RecState := if hold = 0 then .shelved position else .conditioning position hold
    (s.putRecord (x.enter st s.minute)).doneReply

/-- The REMOVE disposition: the record is deleted (R22). Its DONE has no content, as 11.3 gives it, where R22 says that the record's last
state is reported in it. DESIGN CHOICE (log 37). -/
def releaseRemoveReply (r : Request) (s : State) : Reply :=
  releaseChecked r s fun f _ _ _ => (s.eraseRecord f.id).doneReply

/-- The RELEASE SUSPECT requests that a disposition's row takes: those of that disposition, and those of none of the
three, or with no whole layout to show one, which every row answers MALFORMED alike (R19, log 17). -/
def dispositionFits (disposition : Nat) (fields : List Byte) : Bool :=
  let d := (releaseOf fields).disposition
  !layoutWhole .releaseSuspect fields || d == disposition || !(d == 1 || d == 2 || d == 3)

/-- ENROL (R15). -/
def execEnrol (s : State) : Host.Outcome State Fault Refusal := taken s fun t => t.takeRequest .enrol anyFields enrolReply

/-- RETIRE (R16). -/
def execRetire (s : State) : Host.Outcome State Fault Refusal := taken s fun t => t.takeRequest .retire anyFields retireReply

/-- SHELVE (R17, R158). -/
def execShelve (s : State) : Host.Outcome State Fault Refusal := taken s fun t => t.takeRequest .shelve anyFields shelveReply

/-- QUERY_RECORD (R18). -/
def execQueryRecord (s : State) : Host.Outcome State Fault Refusal :=
  taken s fun t => t.takeRequest .queryRecord anyFields queryRecordReply

/-- RELEASE_SUSPECT_SHELVE (R19, R20). -/
def execReleaseSuspectShelve (s : State) : Host.Outcome State Fault Refusal :=
  taken s fun t => t.takeRequest .releaseSuspect (dispositionFits 1) releaseShelveReply

/-- RELEASE_SUSPECT_CONDITION (R19, R21). -/
def execReleaseSuspectCondition (s : State) : Host.Outcome State Fault Refusal :=
  taken s fun t => t.takeRequest .releaseSuspect (dispositionFits 2) releaseConditionReply

/-- RELEASE_SUSPECT_REMOVE (R19, R22). -/
def execReleaseSuspectRemove (s : State) : Host.Outcome State Fault Refusal :=
  taken s fun t => t.takeRequest .releaseSuspect (dispositionFits 3) releaseRemoveReply

end Sys2Proof.Machine
end

