-- ==== Sys2Proof/Machine/Conditioning.lean ====
section
/-! DEFINITION. The settling of a returned cartridge (R77 to R86), and the meanings of the clock's second, the minute
event, the rollover and the completed hold (R13, R14, R88, R89, R108). -/

namespace Sys2Proof.Machine

/-! ### Settling -/

/-- The covered exposure: the weights times the minutes, each product and each running total saturated (R78 to R80). -/
def coveredExposure (c : ConfigRecord) (summary : List Interval) : Nat :=
  summary.foldl (fun total i => saturate (total + saturate (weight c i.rh i.temperature * i.minutes))) 0

/-- The covered minutes, the summary's total (R53, R80). -/
def coveredMinutes (summary : List Interval) : Nat := (summary.map fun i => i.minutes).sum

/-- The exposure of an entry from its out minutes (R82, R83). -/
def exposureFor (c : ConfigRecord) (summary : List Interval) (outMinutes : Nat) : Nat :=
  saturate (coveredExposure c summary + saturate (c.uncovered * (outMinutes - coveredMinutes summary)))

/-- The hold of an exposure: the base hold plus the exposure divided by K rounded up, at most the ceiling (R84). -/
def holdFor (c : ConfigRecord) (exposure : Nat) : Nat :=
  min (c.baseHold + (exposure + c.divisor - 1) / c.divisor) c.ceiling

/-- The advised hold that a computed hold gives (R85). -/
def advisedOf (hold : Nat) : Option Nat := if 1 ≤ hold then some hold else none

/-- The out minutes of an entry: since the record's departure, or the summary's total for an UNREGISTERED one (R81). -/
def outMinutes (identity : CaseIdentity) (minute : Nat) (departure : Option CaseField) : Nat :=
  match departure with
  | some c => minute - c.departureMinute
  | none => coveredMinutes identity.summary

/-- The classification of an entry, with the hold it gives the record: the first condition that holds (R85). -/
def classify (c : ConfigRecord) (identity : CaseIdentity) (kind : ScanKind) (departure : Option CaseField)
    (exposure : Nat) : RecState :=
  let hold := holdFor c exposure
  let suspect := RecState.suspect none (advisedOf hold)
  match kind, departure with
  | .record mismatch, some d =>
    if d.departureCount ≠ identity.count then suspect .countMismatch
    else if mismatch then suspect .custodyMismatch
    else if 0 < c.exposureLimit ∧ c.exposureLimit ≤ exposure then suspect .exposure
    else if 1 ≤ hold then .conditioning none hold
    else .shelved none
  | _, _ => suspect .unregistered

/-- The record that a settled entry becomes (R68, R86). -/
def settleEntry (c : ConfigRecord) (identity : CaseIdentity) (minute : Nat) (e : ScanEntry)
    (departure : Option CaseField) : Record :=
  let exposure := exposureFor c identity.summary (outMinutes identity minute departure)
  ⟨e.id, classify c identity e.kind departure exposure, some exposure, identity.summary.isEmpty, minute⟩

/-! ### The clock -/

/-- A second of the time base: the zone clock gains one, holding at its top, a multiple of 60 announces the minute event,
and the accumulator gains one if it runs, with the rollover that the gain may bring (R13, R14, R87, R88, R89, R94). -/
def State.second (s : State) : State :=
  let ticked := s.withNow ((s.now / 1000 + 1) * 1000)
  if s.custody.zoneClock < clockTop then
    let clock := s.custody.zoneClock + 1
    let counted := ticked.withCustody { s.custody with zoneClock := clock, minuteDue := clock % 60 == 0 }
    if s.conditioningRuns then counted.runningSecond else counted
  else ticked

/-- The lifetime of an OPEN manifest lowered by one (R30). -/
def lowerLifetime (m : Manifest) : Manifest :=
  match m.state with
  | .waiting => { m with lifetime := m.lifetime - 1 }
  | .inSession => m

/-- The transit limit of a TAKEN or AWAITING ARRIVAL entry lowered by one (R151, R157). -/
def lowerLimit (e : TransferEntry) : TransferEntry :=
  match e.state with
  | .offered _ => e
  | .taken limit => { e with state := .taken (limit - 1) }
  | .awaitingArrival limit => { e with state := .awaitingArrival (limit - 1) }

/-- What a minute event adds to the excursion account (R108). -/
def State.minuteCharge (s : State) : Nat :=
  if s.climate.inBand then 0
  else match s.climate.zone with
    | none => s.cfg.uncovered
    | some z => weight s.cfg z.rh z.temperature

/-- The excursion account's addition at a minute event, and the latch it may set (R108, R109). -/
def State.chargeExcursion (s : State) : State :=
  if s.configured then
    let account := saturate (s.climate.account + s.minuteCharge)
    if s.cfg.excursionLimit ≤ account ∧ s.climate.latch = false then
      (s.withClimate { s.climate with account := account, latch := true }).emit (.excursion account s.minute)
    else s.withClimate { s.climate with account := account }
  else s

/-- The minute event taken (R14): manifest lifetimes (R30), transit limits (R151), and the excursion account (R108). What
it brings to 0 is due (R31, R152, R159). -/
def State.minuteStep (s : State) : State :=
  if s.custody.minuteDue then
    let counted := s.withCustody { s.custody with
      minuteDue := false, manifests := s.custody.manifests.map fun m => m.map lowerLifetime }
    (counted.setEntries (counted.transfer.entries.map lowerLimit)).chargeExcursion
  else s

/-- ZONE_CLOCK_SECOND (R13). A minute event announced by an earlier second is taken before this one (log 15). -/
def execZoneClockSecond (s : State) : Host.Outcome State Fault Refusal := taken s fun t => t.minuteStep.settle.second

/-- MINUTE_EVENT (R14). -/
def execMinuteEvent (s : State) : Host.Outcome State Fault Refusal := taken s State.minuteStep

/-- A rollover where one is due: an accumulator at 60, which no second leaves behind (R88, log 1). -/
def State.rolloverStep (s : State) : State := if rolloverSeconds ≤ s.conditioning.accumulator then s.rollover else s

/-- ROLLOVER: the rollover of R88, which the second that brings it about takes in its own step (log 1). -/
def execRollover (s : State) : Host.Outcome State Fault Refusal := .next s.rolloverStep

/-- CONDITIONING_COMPLETE: the first record in identifier order that stands CONDITIONING with no hold left, which no rollover leaves
behind (R89, log 1). -/
def execConditioningComplete (s : State) : Host.Outcome State Fault Refusal := .next s.completeStep

end Sys2Proof.Machine
end

