-- ==== Sys2Proof/Machine/Dock.lean ====
section
/-! DEFINITION. The dock unit's events: the case and the keys, AUTHORIZE and DENY, the case's answers, the commit point and
the timers (R43 to R75). -/

namespace Sys2Proof.Machine

/-! ### Case, keys, indicator -/

/-- A session starts: the number raised, WAKING, the state timer running, the indicator ACTIVE, the first WAKE sent (R44,
R46, R51). -/
def State.startSession (s : State) : State :=
  (s.withDock { s.dock with session := .waking, number := (s.dock.number + 1) % 256, stateTimer := some s.now,
                            indicator := .active, displayTimer := none }).sendNext

/-- Whether an arrival is refused (R44). -/
def State.arrivalBarred (s : State) : Bool := !s.configured || s.fire.seq.inAlarm || s.fire.neighbourAlert

/-- The presence contact closes: in IDLE the arrival is judged, elsewhere it has no effect (R43, R44). -/
def State.caseArrives (s : State) : State :=
  let present := s.withPins { s.pins with casePresent := true }
  match s.dock.session with
  | .idle =>
    if s.arrivalBarred then
      (present.withDock { s.dock with indicator := .refused, displayTimer := some s.now }).emit .arrivalRefused
    else present.startSession
  | _ => present

/-- The presence contact opens: the exchange ends, and the session with it (R43, R50, R70, R71). -/
def State.caseLeaves (s : State) : State :=
  let absent := s.withPins { s.pins with casePresent := false }
  match s.dock.session with
  | .idle => absent.withDock { s.dock with outstanding := none, pendingAbort := none }
  | .committing => absent.endCommitted .handoverUnconfirmed
  | _ => absent.endUncommitted .caseRemoved

/-- A CLOSE press: in LOADING it seals the session, or ends it with NOTHING LOADED; elsewhere it is ignored (R45, R64). -/
def State.closePressed (s : State) : State :=
  match s.dock.session with
  | .loading =>
    if s.dock.scans.isEmpty then s.endUncommitted .nothingLoaded
    else (s.withDock { s.dock with session := .sealing, faults := 0, idleTimer := none }).sendAtOnce
  | _ => s

/-- A CANCEL press: before the commit point it ends the session with CANCELLED; elsewhere it is ignored (R45). -/
def State.cancelPressed (s : State) : State :=
  if s.dock.session.beforeCommit then s.endUncommitted .cancelled else s

/-! ### Authorisation -/

/-- AWAITING AUTH goes to LOADING: authorisation timer stopped, idle timer started, verdict NONE (R55). -/
def State.enterLoading (s : State) (manifest : Option Nat) : State :=
  s.withDock { s.dock with session := .loading, faults := 0, manifest := manifest, verdict := .none, authTimer := none,
                           idleTimer := some s.now }

/-- The binding of a manifest to a DEPART session: IN SESSION, its lifetime kept, or refused (R35). -/
def State.bindManifest (s : State) (number : Nat) : Option State :=
  match s.manifest? number with
  | none => none
  | some m =>
    match m.state with
    | .inSession => none
    | .waiting => some (s.setManifest number (some { m with state := .inSession }))

/-- The manifest byte of AUTHORIZE that marks a RETURN (11.2). -/
def returnMark : Nat := 255

/-- AUTHORIZE, checked in the order of R55. -/
def authorizeReply (r : Request) (s : State) : Reply :=
  let fields := requestFields r.payload
  let mark := byteAt fields 1
  if ¬((1 ≤ mark ∧ mark ≤ 4) ∨ mark = returnMark) then s.refuse .malformed
  else if s.dock.session = .idle ∨ byteAt fields 0 ≠ s.dock.number then s.refuse .noSession
  else if s.dock.session ≠ .awaitingAuth then s.refuse .wrongState
  else
    match s.dock.intent with
    | some .returning => if mark = returnMark then (s.enterLoading none).doneReply else s.refuse .wrongState
    | _ =>
      if mark = returnMark then s.refuse .wrongState
      else
        match s.bindManifest mark with
        | none => s.refuse .noSuchManifest
        | some bound => (bound.enterLoading (some mark)).doneReply

/-- DENY (R56). -/
def denyReply (r : Request) (s : State) : Reply :=
  if s.dock.session = .idle ∨ byteAt (requestFields r.payload) 0 ≠ s.dock.number then s.refuse .noSession
  else if s.dock.session ≠ .awaitingAuth then s.refuse .wrongState
  else (s.endUncommitted .denied).doneReply

/-! ### Scans -/

/-- The verdict on the last scan (R59). -/
def State.setVerdict (s : State) (v : Verdict) : State := s.withDock { s.dock with verdict := v }

/-- An entry appended to the scan list, with the verdict ACCEPTED (R58). -/
def State.appendScan (s : State) (e : ScanEntry) : State :=
  s.withDock { s.dock with scans := s.dock.scans ++ [e], verdict := .accepted }

/-- Whether the scan list is full (R58). -/
def State.listFull (s : State) : Bool := listCapacity ≤ s.dock.scans.length

/-- A scan of a DEPART session, judged against the bound manifest (R60, conditions 3 to 5). -/
def State.judgeDepartScan (s : State) (id : Ident) : State :=
  match s.find id with
  | none => s.setVerdict (.rejected .notOnManifest)
  | some r =>
    match r.st with
    | .reserved p number =>
      if s.dock.manifest = some number then
        if s.listFull then s.setVerdict (.rejected .listFull)
        else (s.putRecord (r.enter (.loading p number) s.minute)).appendScan ⟨id, .record false⟩
      else s.setVerdict (.rejected .notOnManifest)
    | _ => s.setVerdict (.rejected .notOnManifest)

/-- A scan of a RETURN session, judged against the register (R61, conditions 3 to 7). -/
def State.judgeReturnScan (s : State) (id : Ident) : State :=
  if s.listFull then s.setVerdict (.rejected .listFull)
  else
    match s.find id with
    | some r =>
      match r.st with
      | .out c =>
        (s.putRecord (r.enter (.returning c) s.minute)).appendScan
          ⟨id, .record (decide (s.dock.identity.map (·.caseId) ≠ some c.caseId))⟩
      | _ => s.setVerdict (.rejected .duplicate)
    | none =>
      if s.occupancy < registerCapacity then s.appendScan ⟨id, .unregistered⟩
      else s.setVerdict (.rejected .registerFull)

/-- An accepted SCAN in LOADING: it restarts the idle timer, and is HELD in ALARM-1, else judged in the order of R60 or R61
(R59, R62). -/
def State.judgeScan (s : State) (id : Ident) : State :=
  let timed := s.withDock { s.dock with idleTimer := some s.now }
  if s.fire.seq = .alarm1 then timed.setVerdict .held
  else if !identOk id then timed.setVerdict (.rejected .malformed)
  else if s.scanned id then timed.setVerdict .accepted
  else
    match s.dock.intent with
    | some .returning => timed.judgeReturnScan id
    | _ => timed.judgeDepartScan id

/-! ### The commit point -/

/-- The expected count: the case's handover count plus one, wrapping (R67, R70). -/
def CaseIdentity.nextCount (i : CaseIdentity) : Nat := (i.count + 1) % 65536

/-- Whether a scan list entry stands as the commit needs it: a RECORD entry's record in LOADING or RETURNING by the intent,
an UNREGISTERED entry's identifier without a record (R8, R66). -/
def State.entryReady (s : State) (e : ScanEntry) : Bool :=
  match e.kind, s.find e.id with
  | .record _, some r =>
    match r.st with
    | .loading _ _ => s.dock.intent != some .returning
    | .returning _ => s.dock.intent == some .returning
    | _ => false
  | .unregistered, none => s.dock.intent == some .returning
  | _, _ => false

/-- A LOADING record of the scan list goes OUT with its case field, without exposure, log absent clear (R5, R67). -/
def departRecord (ids : List Ident) (field : CaseField) (r : Record) : Record :=
  match r.st with
  | .loading _ _ =>
    if ids.contains r.id then { r.enter (.out field) field.departureMinute with exposure := none, logAbsent := false } else r
  | _ => r

/-- The RESERVED records of a manifest. -/
def isReservedFor (number : Nat) (r : Record) : Bool :=
  match r.st with
  | .reserved _ m => m == number
  | _ => false

/-- The commit change of a DEPART session: the scanned records OUT, the rest of the manifest back to SHELVED, its entry free
(R36, R67). -/
def State.commitDepart (s : State) (identity : CaseIdentity) : State :=
  let field : CaseField := ⟨identity.caseId, identity.nextCount, s.minute⟩
  let out := s.setRegister (s.custody.register.map (departRecord (s.dock.scans.map (·.id)) field))
  let number := s.dock.manifest.getD 0
  let counts : CommitCounts :=
    ⟨s.dock.scans.length, s.dock.scans.length, s.custody.register.countP (isReservedFor number), 0, 0, 0⟩
  let freed := out.freeManifest number
  freed.withDock { freed.dock with commit := some counts }

/-- The settled record of each entry, in scan-list order (R77, R86). -/
def State.settledRecords (s : State) (identity : CaseIdentity) : List Record :=
  s.dock.scans.map fun e => settleEntry s.cfg identity s.minute e ((s.find e.id).bind (·.st.case))

/-- The SUSPECT ENTRY event of a record that is SUSPECT (R9). -/
def suspectEvent (r : Record) : Option Event :=
  match r.st with
  | .suspect _ advised reason => some (.suspectEntry r.id reason advised)
  | _ => none

/-- The commit change of a RETURN session: every entry's record as settled, then a SUSPECT ENTRY event for each SUSPECT one
in scan-list order (R68, R86). -/
def State.commitReturn (s : State) (identity : CaseIdentity) : State :=
  let records := s.settledRecords identity
  let counts : CommitCounts :=
    ⟨s.dock.scans.length, 0, 0, records.countP fun r => r.st.code == 5, records.countP fun r => r.st.code == 0,
      records.countP fun r => r.st.code == 6⟩
  let applied := records.foldl State.putRecord s
  (applied.withDock { applied.dock with commit := some counts }).emitAll (records.filterMap suspectEvent)

/-- The commit point: the commit change applied whole, or not at all where a record does not stand as it needs (R8, log 24);
the scan list emptied and the session in COMMITTING (R58, R66). -/
def State.commitPoint (s : State) (identity : CaseIdentity) : State :=
  let committed :=
    if s.dock.scans.all s.entryReady then
      match s.dock.intent with
      | some .returning => s.commitReturn identity
      | _ => s.commitDepart identity
    else s
  committed.withDock { committed.dock with session := .committing, scans := [], faults := 0 }

/-- An accepted ECHO in SEALING: the commit point if its count and digest are the DIGEST's, else DIGEST MISMATCH (R66). -/
def State.judgeEcho (s : State) (count : Byte) (digest : Word16) : State :=
  if count.toNat = s.dock.scans.length ∧ digest = s.digest then
    match s.dock.identity with
    | some identity => s.commitPoint identity
    | none => s.endUncommitted .digestMismatch
  else s.endUncommitted .digestMismatch

/-- An accepted DONE in COMMITTING (R70). -/
def State.judgeDone (s : State) (count : Word16) : State :=
  if s.dock.identity.map CaseIdentity.nextCount = some count.toNat then s.endCommitted .committed
  else s.endCommitted .handoverUnconfirmed

/-! ### Case answers -/

/-- An accepted IDENTITY in IDENTIFYING: the identity filled and clamped, AWAITING AUTH, the AUTHORIZATION WANTED event (R52
to R54). -/
def State.takeIdentity (s : State) (caseId : BitVec 32) (badge : BitVec 24) (count : Word16) (intent : Byte)
    (intervals : List RawInterval) : State :=
  let what := intentOf intent
  let summary := match what with
    | .returning => keptSummary intervals
    | .departing => []
  let identity : CaseIdentity := ⟨caseId.toNat, badge.toNat, count.toNat, what, summary⟩
  let waiting := s.withDock { s.dock with session := .awaitingAuth, faults := 0, intent := some what,
                                          identity := some identity, stateTimer := none, authTimer := some s.now }
  let shown := what == .returning
  waiting.emit (.authorizationWanted s.dock.number identity.caseId identity.badge identity.count what
    (if shown then some summary.length else none) (if shown then some (coveredMinutes summary) else none))

/-- What the session state does with an accepted answer; a kind it has no use for is ignored (R48, R51, R52, R54, R59, R64,
R66, R70). -/
def State.actOn (s : State) (f : CaseFrame) : State :=
  match s.dock.session, f with
  | .waking, .awake => s.withDock { s.dock with session := .identifying, faults := 0, stateTimer := some s.now }
  | .identifying, .identity caseId badge count intent intervals => s.takeIdentity caseId badge count intent intervals
  | .loading, .scan id => s.judgeScan id
  | .loading, .nothing => s.setVerdict .none
  | .sealing, .echo count digest => s.judgeEcho count digest
  | .committing, .done count => s.judgeDone count
  | _, _ => s

/-- What ends an exchange within its session: an answer that is well formed and admitted is acted on, and anything else is a frame
fault (R48). -/
def State.judgeAnswer (s : State) (sent : DockFrame) (answer : Option CaseFrame) : State :=
  match answer with
  | some f => if caseFrameOk f && admits sent f then (s.withDock { s.dock with faults := 0 }).actOn f else s.frameFault
  | none => s.frameFault

/-- A case answer, none where its bytes spell none. Taken within 500 ms of the outstanding frame it ends the exchange and is judged, and
a frame that has no interval follows at once; after the session's end it only ends the exchange. Taken later, or with no exchange
outstanding, it is discarded (R48, R50, R69, log 34). -/
def State.hearCase (s : State) (answer : Option CaseFrame) : State :=
  match s.dock.outstanding with
  | none => s
  | some o =>
    if o.sentAt + exchangeLimit < s.now then s
    else if s.dock.session = .idle then s.endExchange
    else (s.endExchange.judgeAnswer o.frame answer).sendAtOnce

/-- No answer within 500 ms: the exchange ends with a frame fault, or after the session's end without one. The state's next frame is
left to DOCK_FRAME_SEND, so that an answer which comes before it finds no exchange and is discarded (R48, R49, R69, log 34). -/
def State.answerTimesOut (s : State) : State :=
  match s.dock.outstanding with
  | none => s
  | some o => if s.dock.session = .idle then s.endExchange else s.endExchange.judgeAnswer o.frame none

/-! ### Meanings -/

/-- AUTHORIZE (R55). -/
def execAuthorize (s : State) : Host.Outcome State Fault Refusal :=
  taken s fun t => t.takeRequest .authorize anyFields authorizeReply

/-- DENY (R56). -/
def execDeny (s : State) : Host.Outcome State Fault Refusal := taken s fun t => t.takeRequest .deny anyFields denyReply

/-- CASE_ARRIVAL (R44). -/
def execCaseArrival (s : State) : Host.Outcome State Fault Refusal := taken s State.caseArrives

/-- CASE_REMOVAL (R43). -/
def execCaseRemoval (s : State) : Host.Outcome State Fault Refusal := taken s State.caseLeaves

/-- CLOSE_KEY (R64). -/
def execCloseKey (s : State) : Host.Outcome State Fault Refusal := taken s State.closePressed

/-- CANCEL_KEY (R45). -/
def execCancelKey (s : State) : Host.Outcome State Fault Refusal := taken s State.cancelPressed

/-- DOCK_FRAME_SEND (R47). -/
def execDockFrameSend (s : State) : Host.Outcome State Fault Refusal := taken s State.sendNext

/-- DOCK_ANSWER_TIMEOUT: no answer within 500 ms (R48). -/
def execDockAnswerTimeout (s : State) : Host.Outcome State Fault Refusal := taken s State.answerTimesOut

/-- MALFORMED_CASE_FRAME: bytes on the link, judged by R191; those that spell an answer which is admitted are that answer. -/
def execMalformedCaseFrame (bytes : List Byte) (s : State) : Host.Outcome State Fault Refusal :=
  taken s fun t => t.hearCase (caseFrameOf bytes)

/-- AWAKE (R51). -/
def execAwake (s : State) : Host.Outcome State Fault Refusal := taken s fun t => t.hearCase (some .awake)

/-- IDENTITY (R52). -/
def execIdentity (caseId : BitVec 32) (badge : BitVec 24) (count : Word16) (intent : Byte) (intervals : List RawInterval)
    (s : State) : Host.Outcome State Fault Refusal :=
  taken s fun t => t.hearCase (some (.identity caseId badge count intent intervals))

/-- SCAN (R59). -/
def execScan (id : Ident) (s : State) : Host.Outcome State Fault Refusal := taken s fun t => t.hearCase (some (.scan id))

/-- NOTHING (R59). -/
def execNothing (s : State) : Host.Outcome State Fault Refusal := taken s fun t => t.hearCase (some .nothing)

/-- ECHO (R66). -/
def execEcho (count : Byte) (digest : Word16) (s : State) : Host.Outcome State Fault Refusal :=
  taken s fun t => t.hearCase (some (.echo count digest))

/-- DONE (R70). -/
def execDone (count : Word16) (s : State) : Host.Outcome State Fault Refusal := taken s fun t => t.hearCase (some (.done count))

/-- WAKING_TIMEOUT (R51). -/
def execWakingTimeout (s : State) : Host.Outcome State Fault Refusal :=
  taken s fun t => if t.dock.session = .waking then t.endUncommitted .noCase else t

/-- IDENTITY_TIMEOUT (R52). -/
def execIdentityTimeout (s : State) : Host.Outcome State Fault Refusal :=
  taken s fun t => if t.dock.session = .identifying then t.endUncommitted .noIdentity else t

/-- AUTH_TIMEOUT (R57). -/
def execAuthTimeout (s : State) : Host.Outcome State Fault Refusal :=
  taken s fun t => if t.dock.session = .awaitingAuth then t.endUncommitted .authTimeout else t

/-- IDLE_TIMEOUT (R63). -/
def execIdleTimeout (s : State) : Host.Outcome State Fault Refusal :=
  taken s fun t => if t.dock.session = .loading then t.endUncommitted .idleTimeout else t

/-- REFUSED_DISPLAY_EXPIRY (R46). -/
def execRefusedDisplayExpiry (s : State) : Host.Outcome State Fault Refusal :=
  taken s fun t => if t.dock.indicator = .refused then t.withDock { t.dock with indicator := .off, displayTimer := none } else t

end Sys2Proof.Machine
end

