-- ==== Sys2Proof/Machine/Fire.lean ====
section
/-! DEFINITION. The fire unit's events: channels, call point, switches, timers and FIRE RESET (R116 to R119, R123 to R126,
R130, R131). -/

namespace Sys2Proof.Machine

/-! ### Inputs -/

/-- A channel's new state recorded, on the pin and in the unit (R116). -/
def State.recordChannel (s : State) (channel : Nat) (state : ChannelState) : State :=
  (s.withPins { s.pins with channels := s.pins.channels.set channel state }).withFire
    { s.fire with channels := s.fire.channels.set channel state }

/-- Whether a channel event takes an assigned channel into FAULT or out of it (R117). -/
def State.faultPassed (s : State) (channel : Nat) (state : ChannelState) : Bool :=
  s.group channel != .unused && (s.channel channel == .fault) != (state == .fault)

/-- A channel event: recorded, reported where it enters or leaves FAULT, then an evaluation (R116, R117, R121). -/
def State.channelChanges (s : State) (channel : Nat) (state : ChannelState) : State :=
  let recorded := s.recordChannel channel state
  (if s.faultPassed channel state then recorded.emit (recorded.faultEvent channel) else recorded).evaluate

/-- An operation of the manual call point: OPERATED, the latch set, then an evaluation (R118). -/
def State.callOperated (s : State) : State :=
  ((s.withPins { s.pins with callOperated := true }).withFire { s.fire with callOperated := true, callLatch := true }).evaluate

/-- A release of the manual call point: RELEASED, the latch as it is (R118). -/
def State.callReleased (s : State) : State :=
  (s.withPins { s.pins with callOperated := false }).withFire { s.fire with callOperated := false }

/-- The hold or isolate input recorded (R119). -/
def State.recordSwitch (s : State) (switch : Switch) (on : Bool) : State :=
  match switch with
  | .hold => (s.withPins { s.pins with holdOn := on }).withFire { s.fire with holdOn := on }
  | .isolate => (s.withPins { s.pins with isolateOn := on }).withFire { s.fire with isolateOn := on }

/-- The door input recorded; it evaluates nothing (R119). -/
def State.recordDoor (s : State) (isOpen : Bool) : State :=
  (s.withPins { s.pins with doorOpen := isOpen }).withFire { s.fire with doorOpen := isOpen }

/-- The agent-ready input recorded; it evaluates nothing (R119). -/
def State.recordAgent (s : State) (ready : Bool) : State :=
  (s.withPins { s.pins with agentReady := ready }).withFire { s.fire with agentReady := ready }

/-! ### Timers -/

/-- The RELEASE OUTCOME event at the expiry of the countdown (R130), its channels in ALARM as R129 lists them (log 41). -/
def State.releaseEvent (s : State) (discharged : Bool) : Event :=
  .releaseOutcome discharged s.fire.doorOpen s.alarmChannels s.fire.callLatch s.custody.zoneClock

/-- The expiry of the countdown: DISCHARGE with the release active if the agent is READY, SOAK otherwise, then RELEASE OUTCOME
(R124, R130). -/
def State.countdownExpires (s : State) : State :=
  match s.fire.seq with
  | .preDischarge =>
    (s.enterSeq (if s.fire.agentReady then .discharge else .soak) .countdownExpiry).emit (s.releaseEvent s.fire.agentReady)
  | _ => s

/-- The end of the pulse: SOAK, the release inactive (R125). -/
def State.pulseEnds (s : State) : State :=
  match s.fire.seq with
  | .discharge => s.enterSeq .soak .pulseEnd
  | _ => s

/-- The end of the soak: RESET-WAIT (R126). -/
def State.soakEnds (s : State) : State :=
  match s.fire.seq with
  | .soak => s.enterSeq .resetWait .soakExpiry
  | _ => s

/-! ### FIRE RESET (R131) -/

/-- Whether an input stands against a FIRE RESET: an in-service channel in ALERT or ALARM, or the call point OPERATED (R131). -/
def State.inputsActive (s : State) : Bool := s.alertCondition || s.alarmCondition || s.fire.callOperated

/-- A FIRE RESET that is taken: the latch clear, the timers stopped, the sequence QUIET (R131). -/
def State.fireResetTaken (s : State) : State := (s.withFire { s.fire with callLatch := false }).enterSeq .quiet .fireReset

/-- FIRE RESET, by the sequence state (R131). -/
def fireResetReply (_ : Request) (s : State) : Reply :=
  match s.fire.seq with
  | .quiet => s.doneReply
  | .preDischarge => s.refuse .sequenceRunning
  | .discharge => s.refuse .sequenceRunning
  | .soak => s.refuse .sequenceRunning
  | _ => if s.inputsActive then s.refuse .inputsActive else s.fireResetTaken.doneReply

/-! ### Meanings -/

/-- FIRE_RESET (R131). -/
def execFireReset (s : State) : Host.Outcome State Fault Refusal :=
  taken s fun t => t.takeRequest .fireReset anyFields fireResetReply

/-- CHANNEL_EVENT (R116). -/
def execChannelEvent (channel : Fin 8) (state : ChannelState) (s : State) : Host.Outcome State Fault Refusal :=
  taken s fun t => t.channelChanges channel.val state

/-- MANUAL_CALL_OPERATION (R118). -/
def execManualCallOperation (s : State) : Host.Outcome State Fault Refusal := taken s State.callOperated

/-- MANUAL_CALL_RELEASE (R118). -/
def execManualCallRelease (s : State) : Host.Outcome State Fault Refusal := taken s State.callReleased

/-- HOLD_OR_ISOLATE_CHANGE (R119, R123). -/
def execHoldOrIsolateChange (switch : Switch) (on : Bool) (s : State) : Host.Outcome State Fault Refusal :=
  taken s fun t => (t.recordSwitch switch on).judgeSwitches

/-- DOOR_CHANGE (R119). -/
def execDoorChange (isOpen : Bool) (s : State) : Host.Outcome State Fault Refusal := taken s fun t => t.recordDoor isOpen

/-- AGENT_READY_CHANGE (R119). -/
def execAgentReadyChange (ready : Bool) (s : State) : Host.Outcome State Fault Refusal := taken s fun t => t.recordAgent ready

/-- COUNTDOWN_EXPIRY (R124). -/
def execCountdownExpiry (s : State) : Host.Outcome State Fault Refusal := taken s State.countdownExpires

/-- PULSE_END (R125). -/
def execPulseEnd (s : State) : Host.Outcome State Fault Refusal := taken s State.pulseEnds

/-- SOAK_EXPIRY (R126). -/
def execSoakExpiry (s : State) : Host.Outcome State Fault Refusal := taken s State.soakEnds

end Sys2Proof.Machine
end

