-- ==== Sys2Proof/Machine/Resets.lean ====
section
/-! DEFINITION. Cold start and warm reset, the request and the timeout that bring a warm reset about, and the address straps
(R23, R24, R39, R74, R93, R114, R139 to R141, R161, R162, R175, R176, R184, R188). -/

namespace Sys2Proof.Machine

/-! ### The register normalised (R23) -/

/-- Whether a record's transfer had been taken, by its entry (R23, R161). -/
def takenEntry (entries : List TransferEntry) (id : Ident) : Bool :=
  match findBy TransferEntry.id id entries with
  | none => false
  | some e =>
    match e.state with
    | .taken _ => true
    | .offered _ => false
    | .awaitingArrival _ => false

/-- One record normalised by the state it held: kept, put into a state that stands without the work the reset ended, or
deleted (R23). -/
def normaliseRecord (entries : List TransferEntry) (ceiling minute : Nat) (r : Record) : Option Record :=
  match r.st with
  | .shelved _ => some r
  | .reserved p _ => some (r.enter (.shelved (some p)) minute)
  | .loading p _ => some (r.enter (.shelved (some p)) minute)
  | .out _ => some r
  | .returning c => some (r.enter (.out c) minute)
  | .conditioning _ _ => some r
  | .suspect _ _ _ => some r
  | .transferring _ restore =>
    if takenEntry entries r.id then some (loseRecord .transferInterrupted minute r)
    else some (r.enter (restore.back ceiling) minute)
  | .inbound _ _ => none

/-- Whether the reset makes a record SUSPECT TRANSFER INTERRUPTED (R23). -/
def interrupted (entries : List TransferEntry) (r : Record) : Bool :=
  match r.st with
  | .transferring _ _ => takenEntry entries r.id
  | _ => false

/-- Whether a record is INBOUND. -/
def isInbound (r : Record) : Bool := r.st.code == 8

/-- The custody unit at warm reset: the register normalised, the manifests free, the clock kept (R13, R23, R39). -/
def State.normalised (s : State) : CustodyUnit :=
  { s.custody with
    register := s.custody.register.filterMap (normaliseRecord s.transfer.entries s.cfg.ceiling s.minute),
    manifests := [none, none, none, none] }

/-! ### Resets -/

/-- The climate unit at warm reset: probes FAILED, value UNKNOWN, OUT OF BAND, both outputs OFF from the reset on, the next round due at
once, the account and the latch kept, and an answer for the round abandoned late (R114, log 35). -/
def ClimateUnit.reset (c : ClimateUnit) (now : Nat) : ClimateUnit :=
  { coldClimate with roundStart := c.roundStart, nextRound := now,
                     late := (c.round.map (·.asked)).toList ++ c.late, humidify := ⟨false, some now⟩, dehumidify := ⟨false, some now⟩,
                     account := c.account, latch := c.latch }

/-- Every block at its warm-reset value, the configuration kept (R23, R39, R74, R93, R114, R140, R161, R175, R176, R188). -/
def State.warmCleared (s : State) : State where
  pins := s.pins
  request := { s.request with resetWait := none }
  custody := s.normalised
  dock := idleDock s.dock.number
  conditioning := ⟨0⟩
  climate := s.climate.reset s.now
  fire := coldFire s.pins
  transfer := ⟨[], s.transfer.number⟩
  line := freshLine s.pins.straps s.now (s.line.peers.map fun p => p.neighbour)
  notices := emptyNotices
  now := s.now
  free := s.free
  pending := s.pending

/-- The RESTART event of a warm reset (R188). -/
def State.restartEvent (s : State) (cause : ResetCause) : Event :=
  .restart cause (s.custody.register.countP (interrupted s.transfer.entries)) (s.custody.register.countP isInbound)
    s.custody.zoneClock

/-- A warm reset: every block cleared, the RESTART event, then the input survey (R23, R139, R188). -/
def State.warmReset (s : State) (cause : ResetCause) : State := (s.warmCleared.emit (s.restartEvent cause)).inputSurvey

/-- A cold start: every block at its cold-start value, then the input survey (R24, R139, R141). -/
def State.coldStarted (s : State) : State := (State.cold s.pins 0 s.free s.pending).inputSurvey

/-- RESET: DONE, and no further request is taken until the warm reset that follows (R184). -/
def resetReply (_ : Request) (s : State) : Reply :=
  (s.withRequest { s.request with resetWait := some (s.now + resetWaitLimit) }).doneReply

/-- A warm reset that was requested takes effect, while its RESET waits (R184). -/
def State.requestedReset (s : State) : State :=
  match s.request.resetWait with
  | none => s
  | some _ => s.warmReset .resetRequest

/-! ### Meanings -/

/-- COLD_START (R24). -/
def execColdStart (s : State) : Host.Outcome State Fault Refusal := .next s.coldStarted

/-- WARM_RESET (R23). -/
def execWarmReset (s : State) : Host.Outcome State Fault Refusal := taken s fun t => t.warmReset .resetInput

/-- RESET (R184). -/
def execReset (s : State) : Host.Outcome State Fault Refusal := taken s fun t => t.takeRequest .reset anyFields resetReply

/-- RESET_ANSWER_TIMEOUT (R184). -/
def execResetAnswerTimeout (s : State) : Host.Outcome State Fault Refusal := taken s State.requestedReset

/-- ADDRESS_STRAP_CHANGE: the straps' position, read at the next reset (R162). -/
def execAddressStrapChange (address : Fin 16) (s : State) : Host.Outcome State Fault Refusal :=
  taken s fun t => t.withPins { t.pins with straps := address.val }

end Sys2Proof.Machine
end

