-- ==== Sys2Proof/Machine/Transfer.lean ====
section
/-! DEFINITION. Inter-zone transfers: MOVE, the five message kinds as the transfer unit takes them, the expiries, and the
outcomes of sending (R144 to R159). -/

namespace Sys2Proof.Machine

/-! ### MOVE -/

/-- Whether a destination is unavailable, by the peer table as it stands (R146). -/
def State.unavailable (s : State) (dest : Nat) : Bool :=
  match s.peer dest with
  | none => true
  | some p =>
    match p.beacon with
    | none => true
    | some b => dest == s.line.address || p.presence != .present || !b.configured || 3 ≤ seqCode b.fire || p.confirmed

/-- Whether a destination's last beacon reports its register full (R146). -/
def State.peerFull (s : State) (dest : Nat) : Bool :=
  match (s.peer dest).bind (·.beacon) with
  | none => false
  | some b => b.registerCount == registerCapacity

/-- The restore field that a record in SHELVED or CONDITIONING takes along; none for the other states (R7, R146). -/
def Record.restoreField (r : Record) : Option Restore :=
  match r.st with
  | .shelved p => some ⟨.shelved, p⟩
  | .conditioning p h => some ⟨.conditioning h, p⟩
  | _ => none

/-- A MOVE begins: number raised, record TRANSFERRING, entry OFFERED with its wait not started, OFFER queued (R147). The OFFER carries
the exposure and no log-absent flag, as R147 and 11.1 lay it out, where R5 says that a transfer carries both. DESIGN CHOICE (log 36). The
number is the next one, as R147 has it, also where an OUT entry of 256 offers ago still holds it, although R144 says that the table cannot
hold two OUT entries with one number. DESIGN CHOICE (R144, R147, log 46). -/
def State.beginMove (s : State) (r : Record) (restore : Restore) (dest : Nat) : State :=
  let number := (s.transfer.number + 1) % 256
  let numbered := s.withTransfer { s.transfer with number := number }
  let moved := numbered.putRecord (r.enter (.transferring ⟨dest, number⟩ restore) s.minute)
  (moved.putEntry ⟨r.id, dest, number, .offered none⟩).queuePeer ⟨dest, .offer r.id number restore.hold r.exposure⟩

/-- MOVE, checked in the order of R146. -/
def moveReply (r : Request) (s : State) : Reply :=
  let fields := requestFields r.payload
  let id := slice fields 0 10
  let dest := byteAt fields 10
  if !identOk id || 15 < dest then s.refuse .malformed
  else if s.fire.seq.inAlarm then s.refuse .zoneAlarm
  else
    match s.find id with
    | none => s.refuse .noSuchRecord
    | some x =>
      match x.restoreField with
      | none => s.refuse .wrongState
      | some restore =>
        if s.unavailable dest then s.refuse .peerUnavailable
        else if s.peerFull dest then s.refuse .peerFull
        else if transferCapacity ≤ s.transfer.entries.length then s.refuse .transferTableFull
        else if !s.peerRoom then s.refuse .queueFull
        else
          let begun := s.beginMove x restore dest
          ⟨begun, .done, [BitVec.ofNat 8 begun.transfer.number]⟩

/-! ### Messages taken -/

/-- The entry that a message matches: its direction, its peer the sender, its number and identifier those carried (R144). -/
def State.matching (s : State) (direction : Direction) (sender number : Nat) (id : Ident) : Option TransferEntry :=
  match s.entry id with
  | none => none
  | some e => if e.direction = direction ∧ e.peer = sender ∧ e.number = number then some e else none

/-- The state with the head of the peer input queue removed. -/
def State.popPeer (s : State) : State := s.withLine { s.line with peerIn := s.line.peerIn.drop 1 }

/-- The message at the head of the peer input queue is taken, while the peer output queue has a free place, if it is of the
row's kind; one addressed to NEIGHBOURS or ALL is discarded (R145). -/
def State.takePeer (s : State) (kind : PeerKind) (act : PeerIn → State → State) : State :=
  if s.peerRoom then
    match s.line.peerIn with
    | [] => s
    | m :: _ => if m.kind = kind then (if m.dest ≤ 15 then act m s.popPeer else s.popPeer) else s
  else s

/-- Why an OFFER is declined: the first condition of R156 that holds. -/
def State.declineReason (s : State) (o : OfferFields) : Option DeclineReason :=
  if !identOk o.id || 3 < o.presence then some .malformed
  else if s.fire.seq.inAlarm then some .zoneAlarm
  else if s.known o.id then some .duplicate
  else if registerCapacity ≤ s.occupancy then some .registerFull
  else if transferCapacity ≤ s.transfer.entries.length then some .tableFull
  else none

/-- The hold that an OFFER gives; a hold of 0 is no hold (R156). -/
def OfferFields.heldFor (o : OfferFields) : Option Nat := if o.presence % 2 = 1 ∧ o.hold ≠ 0 then some o.hold else none

/-- The exposure that an OFFER gives. -/
def OfferFields.exposed (o : OfferFields) : Option Nat := if o.presence / 2 % 2 = 1 then some o.exposure else none

/-- An inbound transfer begins: INBOUND record, IN entry, TAKE queued (R157). -/
def State.beginInbound (s : State) (o : OfferFields) (sender : Nat) : State :=
  let recorded := s.putRecord ⟨o.id, .inbound ⟨sender, o.number⟩ o.heldFor, o.exposed, false, s.minute⟩
  (recorded.putEntry ⟨o.id, sender, o.number, .awaitingArrival s.cfg.transitLimit⟩).queuePeer ⟨sender, .take o.id o.number⟩

/-- An OFFER taken: discarded if its layout is not whole, declined with a reason, or begun (R145, R156, R157). -/
def takeOffer (m : PeerIn) (s : State) : State :=
  match offerOf m.payload with
  | none => s
  | some o =>
    match s.declineReason o with
    | some reason => s.queuePeer ⟨m.sender, .decline o.id o.number reason⟩
    | none => s.beginInbound o m.sender

/-- A TAKE taken: an OFFERED entry goes to TAKEN and its transit limit starts; a TAKE for a TAKEN entry is discarded; one that
matches no entry is answered with a WITHDRAW (R149, R153). -/
def takeTake (m : PeerIn) (s : State) : State :=
  match transferOf m.payload with
  | none => s
  | some (id, number) =>
    match s.matching .out m.sender number id with
    | none => s.queuePeer ⟨m.sender, .withdraw id number⟩
    | some e => if e.isOffered then s.putEntry { e with state := .taken s.cfg.transitLimit } else s

/-- A DECLINE taken: an OFFERED entry it matches ends DECLINED with the reason carried; any other DECLINE is discarded (R150,
R153). -/
def takeDecline (m : PeerIn) (s : State) : State :=
  match declineOf m.payload with
  | none => s
  | some (id, number, reason) =>
    match s.matching .out m.sender number id with
    | none => s
    | some e => if e.isOffered then s.keepCartridge e .declined (some reason) else s

/-- A WITHDRAW taken: the IN entry it matches ends CANCELLED BY SENDER; any other is discarded (R153, R159). -/
def takeWithdraw (m : PeerIn) (s : State) : State :=
  match transferOf m.payload with
  | none => s
  | some (id, number) =>
    match s.matching .in_ m.sender number id with
    | none => s
    | some e => s.dropCartridge e .cancelledBySender

/-- A late ARRIVED: a SUSPECT TRANSIT LOST record of the identifier is deleted, outcome RESOLVED LATE with the message's own
sender and number (log 33); otherwise it is discarded (R154). -/
def State.lateArrived (s : State) (id : Ident) (sender number : Nat) : State :=
  match s.find id with
  | none => s
  | some r =>
    match r.st with
    | .suspect _ _ .transitLost => (s.eraseRecord id).emit (.transferOutcome id .out sender number .resolvedLate none s.minute)
    | _ => s

/-- An ARRIVED taken: a TAKEN entry it matches ends DELIVERED; any other is late (R151, R154). -/
def takeArrived (m : PeerIn) (s : State) : State :=
  match transferOf m.payload with
  | none => s
  | some (id, number) =>
    match s.matching .out m.sender number id with
    | none => s.lateArrived id m.sender number
    | some e => if e.isOffered then s.lateArrived id m.sender number else s.dropCartridge e .delivered

/-! ### Outcomes of sending -/

/-- The entry of an identifier under a transfer number. -/
def State.entryNumbered (s : State) (id : Ident) (number : Nat) : Option TransferEntry :=
  match s.entry id with
  | none => none
  | some e => if e.number = number then some e else none

/-- The outcome of an OFFER (R148). One whose entry is no longer OFFERED with its wait not started, as after a TAKE that was taken before the
outcome, has no column in the table of R148: it is discarded. DESIGN CHOICE (R148, log 48). -/
def State.offerOutcome (s : State) (id : Ident) (number : Nat) (o : SendOutcome) : State :=
  match s.entryNumbered id number with
  | none => s
  | some e =>
    match e.state, o with
    | .offered none, .accepted => s.putEntry { e with state := .offered (some (s.now + 1000 * s.cfg.offerWait)) }
    | .offered none, .refused => s.keepCartridge e .declined (some (BitVec.ofNat 8 (declineCode .busy)))
    | .offered none, .unanswered => s.keepCartridge e .noAnswer none
    | _, _ => s

/-- A TAKE that was not delivered ends the IN entry still awaiting its arrival (R157). -/
def State.takeUndelivered (s : State) (id : Ident) (dest number : Nat) : State :=
  match s.matching .in_ dest number id with
  | none => s
  | some e => s.dropCartridge e .takeNotDelivered

/-- What the transfer unit does with the outcome of a message it sent (R148, R157, R158). -/
def State.peerOutcome (s : State) (m : PeerOut) (o : SendOutcome) : State :=
  match m.body, o with
  | .offer id number _ _, o => s.offerOutcome id number o
  | .take _ _, .accepted => s
  | .take id number, _ => s.takeUndelivered id m.dest number
  | .arrived _ _, .accepted => s
  | .arrived id number, _ => s.emit (.transferOutcome id .in_ m.dest number .arrivalNotDelivered none s.minute)
  | .decline _ _ _, _ => s
  | .withdraw _ _, _ => s

/-! ### Expiries -/

/-- The offer wait of an entry running out: the cartridge kept, outcome NO ANSWER (R150). -/
def State.offerWaitEnds (s : State) (id : Ident) : State :=
  match s.entry id with
  | none => s
  | some e =>
    match e.state with
    | .offered (some _) => s.keepCartridge e .noAnswer none
    | _ => s

/-- A TAKEN entry whose transit limit has reached 0 expires (R152). -/
def State.transitLimitEnds (s : State) (id : Ident) : State :=
  match s.entry id with
  | none => s
  | some e => if e.overdue then s.expireTransit e else s

/-- An IN entry whose transit limit has reached 0 expires (R159). -/
def State.inboundTransitEnds (s : State) (id : Ident) : State :=
  match s.entry id with
  | none => s
  | some e => if e.abandoned then s.dropCartridge e .abandoned else s

/-! ### Meanings -/

/-- MOVE (R146). -/
def execMove (s : State) : Host.Outcome State Fault Refusal := taken s fun t => t.takeRequest .move anyFields moveReply

/-- OFFER (R156). -/
def execOffer (s : State) : Host.Outcome State Fault Refusal := taken s fun t => t.takePeer .offer takeOffer

/-- TAKE (R149). -/
def execTake (s : State) : Host.Outcome State Fault Refusal := taken s fun t => t.takePeer .take takeTake

/-- DECLINE (R150). -/
def execDecline (s : State) : Host.Outcome State Fault Refusal := taken s fun t => t.takePeer .decline takeDecline

/-- WITHDRAW (R159). -/
def execWithdraw (s : State) : Host.Outcome State Fault Refusal := taken s fun t => t.takePeer .withdraw takeWithdraw

/-- ARRIVED (R151). -/
def execArrived (s : State) : Host.Outcome State Fault Refusal := taken s fun t => t.takePeer .arrived takeArrived

/-- OFFER_WAIT_EXPIRY of the entry named (R150). -/
def execOfferWaitExpiry (id : Ident) (s : State) : Host.Outcome State Fault Refusal := taken s fun t => t.offerWaitEnds id

/-- TRANSIT_LIMIT_EXPIRY of the entry named (R152). -/
def execTransitLimitExpiry (id : Ident) (s : State) : Host.Outcome State Fault Refusal := .next (s.transitLimitEnds id)

/-- INBOUND_TRANSIT_EXPIRY of the entry named (R159). -/
def execInboundTransitExpiry (id : Ident) (s : State) : Host.Outcome State Fault Refusal := .next (s.inboundTransitEnds id)

end Sys2Proof.Machine
end

