-- ==== Sys2Proof/Machine/Line.lean ====
section
/-! DEFINITION. The zone line: marks, superframe end and absent peers, the alarm field, the messages heard, the station's own
slot and its outcomes (R162 to R174, R187, R188). -/

namespace Sys2Proof.Machine

/-! ### The own slot: what it carries -/

/-- The content of the beacon as it is formed (R12, R171). -/
def State.beaconContent (s : State) : Beacon :=
  ⟨s.configured, s.fire.seq, s.climate.inBand, s.occupancy, s.dock.session != .idle, s.climate.latch⟩

/-- The sources, from number `base`, that have a pending notice at a level. A source set OFF is at none. -/
def sourcesAt (levels : Nat → Option Nat) (level base : Nat) : List (Option PendingNotice) → List Nat
  | [] => []
  | n :: rest =>
    if n.isSome && levels base == some level then base :: sourcesAt levels level (base + 1) rest
    else sourcesAt levels level (base + 1) rest

/-- The pending notice at a level of the lowest source number (R170). -/
def State.noticeAt (s : State) (level : Nat) : Option Nat := (sourcesAt s.level level 0 s.notices.pending).head?

/-- The first pending notice at level 1, then 2, then 3 (R170). -/
def State.laterNotice (s : State) : Option Nat := ((s.noticeAt 1).or (s.noticeAt 2)).or (s.noticeAt 3)

/-- What the own slot carries, in the order of R170. -/
def State.arbitrate (s : State) : Option SlotItem :=
  if s.line.cycle = 0 then some (.beacon s.beaconContent)
  else
    match s.noticeAt 0, s.line.peerOut, s.line.answers, s.laterNotice with
    | some n, _, _, _ => some (.notice n)
    | none, m :: _, _, _ => some (.peer m)
    | none, [], a :: _, _ => some (.answer a)
    | none, [], [], some n => some (.notice n)
    | none, [], [], none => none

/-- The destination of a notice: the gateway address, or ALL before configuration (R187). -/
def State.noticeDest (s : State) : Nat :=
  match s.configured, s.request.gateway with
  | true, some g => g
  | _, _ => destAll

/-- The payload of a NOTICE: source, level, repeat count, event time and content (11.1). -/
def noticePayload (source level : Nat) (n : PendingNotice) : List Byte :=
  [BitVec.ofNat 8 source, BitVec.ofNat 8 level, BitVec.ofNat 8 n.repeats] ++ toBytes 4 n.time ++ n.content.bytes

/-- The payload of an ANSWER (11.1). -/
def answerPayload (a : Answer) : List Byte := a.kind :: BitVec.ofNat 8 (resultCode a.result) :: a.content

/-- A slot item as it stands on the line (11.1); the tag of a transfer message is a free value (log 8). -/
def State.itemBytes (s : State) (item : SlotItem) : List Byte :=
  match item with
  | .beacon b => messageBytes 1 destAll 0 (beaconBytes b)
  | .notice source =>
    match s.pendingNotice source with
    | some n => messageBytes 4 s.noticeDest (BitVec.ofNat 16 source) (noticePayload source ((s.level source).getD 0) n)
    | none => []
  | .peer m => messageBytes m.body.kind m.dest (Config.peerTag s.free) m.body.bytes
  | .answer a => messageBytes 3 a.dest a.tag (answerPayload a)

/-- The count of free values drawn once an item is sent. -/
def State.drawn (s : State) (item : SlotItem) : Nat :=
  match item with
  | .peer _ => s.free + 1
  | .beacon _ => s.free
  | .notice _ => s.free
  | .answer _ => s.free

/-- A notice chosen takes its sending mark, with its in-slot count at 0 (R187). -/
def State.markSending (s : State) (item : SlotItem) : State :=
  match item with
  | .notice source =>
    match s.pendingNotice source with
    | some n => s.setNotice source (some { n with sending := true, inSlot := 0 })
    | none => s
  | .beacon _ => s
  | .peer _ => s
  | .answer _ => s

/-- An item is sent in the own slot. -/
def State.send (s : State) (item : SlotItem) : State :=
  let marked := s.markSending item
  (marked.withLine { marked.line with sending := some ⟨item, s.itemBytes item, false⟩, slotUsed := true }).withFree (s.drawn item)

/-- The start of the own slot: an aligned station sends what the arbiter chooses, or stays silent (R164, R170). -/
def State.slotStarts (s : State) : State :=
  match s.line.aligned, s.line.sending, s.arbitrate with
  | true, none, some item => s.send item
  | _, _, _ => s

/-! ### The own slot: its outcome -/

/-- The outcome that the acceptance field gives; UNANSWERED where the read-back differs (R166). -/
def slotOutcome (readBackSame accept refuse : Bool) : SendOutcome :=
  if !readBackSame then .unanswered else if accept then .accepted else if refuse then .refused else .unanswered

/-- What an outcome leaves of the notice sent; a notice whose source is now OFF is removed whatever the outcome (R187, R188). -/
def noticeAfter (records : Bool) (o : SendOutcome) (n : PendingNotice) : Option PendingNotice :=
  if !records then none
  else
    match o with
    | .accepted => if n.inSlot = 0 then none else some { n with repeats := n.inSlot - 1, sending := false, inSlot := 0 }
    | .refused => some { n with sending := false, inSlot := 0 }
    | .unanswered => some { n with sending := false, inSlot := 0 }

/-- The outcome of a notice (R187). -/
def State.noticeOutcome (s : State) (source : Nat) (o : SendOutcome) : State :=
  match s.pendingNotice source with
  | none => s
  | some n => s.setNotice source (noticeAfter (s.records source) o n)

/-- The state with the head of the peer output queue removed. -/
def State.popPeerOut (s : State) : State := s.withLine { s.line with peerOut := s.line.peerOut.drop 1 }

/-- The state with the head of the answer queue removed. -/
def State.popAnswer (s : State) : State := s.withLine { s.line with answers := s.line.answers.drop 1 }

/-- The item sent is finished with its outcome: it is removed or stays, and the outcome goes to the block that offered it (R170,
R180). -/
def State.finishItem (s : State) (item : SlotItem) (o : SendOutcome) : State :=
  match item with
  | .beacon _ => s
  | .notice source => s.noticeOutcome source o
  | .peer m => s.popPeerOut.peerOutcome m o
  | .answer _ => s.popAnswer

/-- The message being sent is over (R166). -/
def State.finishSending (s : State) (sent : Sending) (o : SendOutcome) : State :=
  (s.withLine { s.line with sending := none }).finishItem sent.item o

/-- Whether an item is the DONE answer of the RESET that waits (R184). -/
def State.isResetAnswer (s : State) (item : SlotItem) : Bool :=
  match item with
  | .answer a => s.request.resetWait.isSome && a.kind.toNat == requestKindCode .reset && a.result == .done
  | .beacon _ => false
  | .notice _ => false
  | .peer _ => false

/-- The ADDRESS CONFLICT event (R174). -/
def State.conflictEvent (s : State) (kind : Option Byte) : Event := .addressConflict s.line.address s.line.cycle kind

/-- The event of a message whose sending was not cut short and that read back differently (R174). -/
def State.readBackConflict (s : State) (same : Bool) : State := if same then s else s.emit (s.conflictEvent none)

/-- The end of the own slot: the outcome handed back, and the warm reset that a RESET asked for once its DONE answer has been
sent (R166, R170, R174, R184). -/
def State.slotEnds (s : State) (readBackSame accept refuse : Bool) : State :=
  match s.line.sending with
  | none => s
  | some sent =>
    let same := readBackSame && !sent.conflict
    let finished := (s.readBackConflict same).finishSending sent (slotOutcome same accept refuse)
    if s.isResetAnswer sent.item then finished.requestedReset else finished

/-! ### Marks -/

/-- The number that a mark gives: the one it carries, or the own number plus one where it is malformed (R164). -/
def State.markGives (s : State) (mark : Byte) : Nat := (markNumber mark).getD ((s.line.cycle + 1) % 10)

/-- A mark taken: the cycle timer restarted, the number set, the station aligned; the number 0 ends a superframe (R163, R164,
log 19). -/
def State.takeMark (s : State) (mark : Byte) : State :=
  let number := s.markGives mark
  s.withLine { s.line with aligned := true, cycle := number, cycleStart := s.now, slotUsed := false,
                           superframeDue := number == 0 }

/-- A mark cuts short what the station is sending, with the outcome UNANSWERED (R164, R166); where that was the DONE answer of
a RESET, the warm reset follows (R184, log 20). R164 says so of a well-formed heard mark; the model takes a malformed one and one read
back in the same way. DEDUCED (log 38). -/
def State.hearMark (s : State) (mark : Byte) : State :=
  match s.line.sending with
  | none => s.takeMark mark
  | some sent =>
    let marked := (s.finishSending sent .unanswered).takeMark mark
    if s.isResetAnswer sent.item then marked.requestedReset else marked

/-- The cycle timer runs out: the station sends a mark with its number plus one and takes the read-back (R164). -/
def State.cycleTimerEnds (s : State) (readBack : Byte) : State :=
  (s.withLine { s.line with markSent := some (markByte ((s.line.cycle + 1) % 10)) }).hearMark readBack

/-! ### The alarm field (R165) -/

/-- The pairs of the field recorded as the stations' last alarm bits, from address `base`, the own pair not (R165). -/
def recordPairs (field : BitVec 33) (own base : Nat) : List PeerEntry → List PeerEntry
  | [] => []
  | p :: rest =>
    (if base = own then p else { p with alarm := field.getLsbD (2 * base), confirmed := field.getLsbD (2 * base + 1) }) ::
      recordPairs field own (base + 1) rest

/-- An alarm field: the own bits driven, the field read back with what the others drive, the pairs and the general alarm
recorded, and the neighbour-alert flag judged (R165). -/
def State.alarmFieldRead (s : State) (others : BitVec 33) : State :=
  if s.line.aligned then
    let seen := others ||| s.alarmBits
    let driven := s.withLine { s.line with alarmDriven := s.alarmBits, peers := recordPairs seen s.line.address 0 s.line.peers }
    let heard := driven.withFire { driven.fire with generalSeen := seen.getLsbD 32 }
    heard.refreshFireOutputs.judgeNeighbours
  else s

/-! ### Messages heard (R167, R168, R172, R174) -/

/-- A well-formed beacon heard in another station's slot (R172). The neighbour-alert flag is judged with the entry to PRESENT, on the pair that
R165 has recorded by then, as R136 and R172 say, where R140 has it set after a warm reset at the first cycle after that beacon. DESIGN CHOICE
(R136, R140, R172, log 47). -/
def State.hearBeacon (s : State) (slot : Nat) (b : Beacon) : State :=
  match s.peer slot with
  | none => s
  | some p =>
    let stored := s.setPeer slot { p with presence := .present, missed := 0, heard := true, beacon := some b }
    if p.presence = .present then stored
    else (stored.emit (.peerPresence slot .present (some (b.configured, b.fire)))).judgeNeighbours

/-- Whether a message is addressed to this station (R167). -/
def State.addressed (s : State) (slot dest : Nat) : Bool :=
  dest == s.line.address || dest == destAll ||
    (dest == destNeighbours &&
      match s.peer slot with
      | some p => p.neighbour
      | none => false)

/-- The acceptance field as this station drives it in the slot just heard (R166). -/
def State.drive (s : State) (a : Acceptance) : State := s.withLine { s.line with acceptance := a }

/-- Whether a REQUEST of a sender is admitted, room apart (R168). -/
def State.admitsSender (s : State) (sender : Nat) : Bool := !s.configured || s.request.gateway == some sender

/-- A REQUEST addressed to this station (R168). -/
def State.admitRequest (s : State) (slot : Nat) (f : SlotFrame) : State :=
  if s.admitsSender slot && s.line.requests.length < queueDepth then
    (s.withLine { s.line with requests := s.line.requests ++ [⟨slot, f.tag, f.payload⟩] }).drive .accept
  else s.drive .refuse

/-- A transfer message addressed to this station (R168). -/
def State.admitPeer (s : State) (slot : Nat) (kind : PeerKind) (f : SlotFrame) : State :=
  if s.configured && s.line.peerIn.length < queueDepth then
    (s.withLine { s.line with peerIn := s.line.peerIn ++ [⟨kind, slot, f.dest.toNat, f.payload⟩] }).drive .accept
  else s.drive .refuse

/-- A message addressed to this station, judged by its kind (R168). -/
def State.judgeMessage (s : State) (slot : Nat) (kind : Byte) (f : SlotFrame) : State :=
  match kind.toNat with
  | 2 => s.admitRequest slot f
  | 3 => s.drive .neither
  | 4 => s.drive .neither
  | _ =>
    match peerKindOf kind with
    | some k => s.admitPeer slot k f
    | none => s.drive .refuse

/-- A message heard in the own slot: with the slot unused it is an address conflict, and it is never judged (R174). -/
def State.hearOwnSlot (s : State) (kind : Byte) (f : SlotFrame) : State :=
  if s.line.slotUsed || !frameOk kind f then s else s.emit (s.conflictEvent (some kind))

/-- A message heard in another station's slot (R167). -/
def State.hearOther (s : State) (slot : Nat) (kind : Byte) (f : SlotFrame) : State :=
  if frameOk kind f then
    match kind.toNat, beaconOf f.payload with
    | 1, some b => (s.drive .neither).hearBeacon slot b
    | _, _ => if s.addressed slot f.dest.toNat then s.judgeMessage slot kind f else s.drive .neither
  else s.drive .neither

/-- A message heard in a slot; an unaligned station judges none (R164, R167). -/
def State.hearSlot (s : State) (slot : Nat) (kind : Byte) (f : SlotFrame) : State :=
  if s.line.aligned then
    (if slot = s.line.address then s.hearOwnSlot kind f else s.hearOther slot kind f)
  else s

/-- An address conflict as it shows: a message in the own slot in which nothing was sent, which is reported, or a read-back that differs
from what is being sent, which is noted, for the end of the slot to report unless a mark cuts the sending short (R174). -/
def State.conflictShows (s : State) (sign : ConflictSign) : State :=
  match sign with
  | .heard kind f => if s.line.aligned then s.hearOwnSlot kind f else s
  | .readBack =>
    match s.line.sending with
    | none => s
    | some sent => s.withLine { s.line with sending := some { sent with conflict := true } }

/-! ### Meanings -/

/-- CYCLE_MARK (R164). -/
def execCycleMark (mark : Byte) (s : State) : Host.Outcome State Fault Refusal := taken s fun t => t.hearMark mark

/-- CYCLE_TIMER_EXPIRY (R164). -/
def execCycleTimerExpiry (readBack : Byte) (s : State) : Host.Outcome State Fault Refusal :=
  taken s fun t => t.cycleTimerEnds readBack

/-- SUPERFRAME_END (R172). -/
def execSuperframeEnd (s : State) : Host.Outcome State Fault Refusal := .next s.superframeStep

/-- PEER_ABSENT of the peer named (R172). -/
def execPeerAbsent (address : Fin 16) (s : State) : Host.Outcome State Fault Refusal := .next (s.makeAbsent address.val)

/-- ALARM_FIELD (R165). -/
def execAlarmField (others : BitVec 33) (s : State) : Host.Outcome State Fault Refusal :=
  taken s fun t => t.alarmFieldRead others

/-- BEACON_RECEIVED (R172). -/
def execBeaconReceived (slot : Fin 16) (f : SlotFrame) (s : State) : Host.Outcome State Fault Refusal :=
  taken s fun t => t.hearSlot slot.val 1 f

/-- REQUEST_RECEIVED (R168). -/
def execRequestReceived (slot : Fin 16) (f : SlotFrame) (s : State) : Host.Outcome State Fault Refusal :=
  taken s fun t => t.hearSlot slot.val 2 f

/-- PEER_MESSAGE_RECEIVED (R168). -/
def execPeerMessageReceived (slot : Fin 16) (kind : PeerKind) (f : SlotFrame) (s : State) : Host.Outcome State Fault Refusal :=
  taken s fun t => t.hearSlot slot.val (peerKindByte kind) f

/-- IGNORED_MESSAGE (R168). -/
def execIgnoredMessage (slot : Fin 16) (kind : IgnoredKind) (f : SlotFrame) (s : State) : Host.Outcome State Fault Refusal :=
  taken s fun t => t.hearSlot slot.val (ignoredKindByte kind) f

/-- UNKNOWN_KIND_MESSAGE (R168). -/
def execUnknownKindMessage (slot : Fin 16) (kind : Byte) (f : SlotFrame) (s : State) : Host.Outcome State Fault Refusal :=
  taken s fun t => t.hearSlot slot.val kind f

/-- ADDRESS_CONFLICT (R174). -/
def execAddressConflict (sign : ConflictSign) (s : State) : Host.Outcome State Fault Refusal :=
  taken s fun t => t.conflictShows sign

/-- SLOT_START (R170). -/
def execSlotStart (s : State) : Host.Outcome State Fault Refusal := taken s State.slotStarts

/-- SLOT_END (R166). -/
def execSlotEnd (readBackSame accept refuse : Bool) (s : State) : Host.Outcome State Fault Refusal :=
  taken s fun t => t.slotEnds readBackSame accept refuse

end Sys2Proof.Machine
end

