-- ==== Sys2Proof/Machine/Manifests.lean ====
section
/-! DEFINITION. Check-out manifests: CHECK-OUT, CANCEL MANIFEST and the expiry of a manifest (R27 to R33). -/

namespace Sys2Proof.Machine

/-- The identifiers of a CHECK-OUT, in the request's order (11.2). -/
def checkOutList (fields : List Byte) : List Ident := chunks 10 (byteAt fields 0) (fields.drop 1)

/-- The result of one entry, judged against the register as it stands and the earlier entries of the list (R28). -/
def entryResult (s : State) (earlier : List Ident) (id : Ident) : EntryResult :=
  if !identOk id then .malformed
  else if earlier.contains id then .repeated
  else
    match s.find id with
    | none => .noRecord
    | some r =>
      match r.st with
      | .shelved (some _) => .reserved
      | _ => .notShelved

/-- The results of a list in list order (R28). -/
def entryResults (s : State) : (earlier : List Ident) → List Ident → List EntryResult
  | _, [] => []
  | earlier, id :: rest => entryResult s earlier id :: entryResults s (id :: earlier) rest

/-- The members of the manifest: the identifiers whose entries received RESERVED, in list order (R29). -/
def reservedMembers (list : List Ident) (results : List EntryResult) : List Ident :=
  ((list.zip results).filter fun e => e.2 == .reserved).map fun e => e.1

/-- The lowest-numbered free entry of the manifest table, from `base` (R29). -/
def freeFrom (base : Nat) : List (Option Manifest) → Option Nat
  | [] => none
  | none :: _ => some base
  | some _ :: rest => freeFrom (base + 1) rest

/-- A member record goes from SHELVED to RESERVED, keeping its position (R29). -/
def reserveRecord (members : List Ident) (number minute : Nat) (r : Record) : Record :=
  match r.st with
  | .shelved (some p) => if members.contains r.id then r.enter (.reserved p number) minute else r
  | _ => r

/-- The content of a CHECK-OUT's answer (11.3). -/
def checkOutContent (number lifetime : Nat) (results : List EntryResult) : List Byte :=
  [BitVec.ofNat 8 number] ++ toBytes 2 lifetime ++ [BitVec.ofNat 8 results.length] ++
    results.map fun r => BitVec.ofNat 8 (entryResultCode r)

/-- A manifest created OPEN with its members reserved, in one change (R26, R29). -/
def State.createManifest (s : State) (number : Nat) (members : List Ident) : State :=
  (s.setRegister (s.custody.register.map (reserveRecord members number s.minute))).setManifest number
    (some ⟨.waiting, members, s.cfg.manifestLifetime⟩)

/-- CHECK-OUT: the whole-request checks in their order, then the entries, then the manifest (R27 to R29). -/
def checkOutReply (r : Request) (s : State) : Reply :=
  let list := checkOutList (requestFields r.payload)
  if list.length = 0 ∨ listCapacity < list.length then s.refuse .malformed
  else if s.fire.seq.inAlarm then s.refuse .zoneAlarm
  else if s.climate.latch then s.refuse .excursion
  else
    match freeFrom 1 s.custody.manifests with
    | none => s.refuse .noManifestSlot
    | some number =>
      let results := entryResults s [] list
      let members := reservedMembers list results
      if members.isEmpty then ⟨s, .nothingReserved, checkOutContent 0 0 results⟩
      else ⟨s.createManifest number members, .done, checkOutContent number s.cfg.manifestLifetime results⟩

/-- CANCEL MANIFEST: an OPEN manifest ends as at expiry, with cause CANCELLED (R33). -/
def cancelManifestReply (r : Request) (s : State) : Reply :=
  let number := byteAt (requestFields r.payload) 0
  if number < 1 ∨ 4 < number then s.refuse .malformed
  else
    match s.manifest? number with
    | none => s.refuse .noSuchManifest
    | some m =>
      match m.state with
      | .inSession => s.refuse .wrongState
      | .waiting => (s.endManifest number m .cancelled).doneReply

/-- CHECK_OUT (R27 to R29). -/
def execCheckOut (s : State) : Host.Outcome State Fault Refusal :=
  taken s fun t => t.takeRequest .checkOut anyFields checkOutReply

/-- CANCEL_MANIFEST (R33). -/
def execCancelManifest (s : State) : Host.Outcome State Fault Refusal :=
  taken s fun t => t.takeRequest .cancelManifest anyFields cancelManifestReply

/-- MANIFEST_EXPIRY: the lowest-numbered manifest whose lifetime has reached 0 expires (R31). -/
def execManifestExpiry (s : State) : Host.Outcome State Fault Refusal := .next s.expireManifestStep

end Sys2Proof.Machine
end

