-- ==== Sys2Proof/Machine/Timing.lean ====
section
/-! DEFINITION. When the time-driven commands are due on the time base. `exec` does not ask for it: but for the poll rounds, a
sender may bring a timer's expiry at any moment at which the timer runs, so the model allows more runs than the part has (log 5,
safe). -/

namespace Sys2Proof.Machine

/-- A timer that started at `start` has run for `limit` milliseconds. -/
def ranOut (now limit : Nat) (start : Option Nat) : Bool :=
  match start with
  | none => false
  | some t => t + limit ≤ now

/-- A timer that ends at `deadline` has ended. -/
def ended (now : Nat) (deadline : Option Nat) : Bool :=
  match deadline with
  | none => false
  | some t => t ≤ now

/-- The dock's next frame is due: no exchange outstanding, and the state's interval past since the last frame (R47). -/
def State.frameDue (s : State) : Bool :=
  s.dock.outstanding.isNone && s.stateFrame.isSome &&
    match s.dock.lastSentAt with
    | none => true
    | some t => t + sendInterval s.dock.session ≤ s.now

/-- The offer wait of an entry has run out (R150). -/
def State.offerWaitOver (s : State) (id : Ident) : Bool :=
  match s.entry id with
  | none => false
  | some e =>
    match e.state with
    | .offered wait => ended s.now wait
    | _ => false

/-- Whether a time-driven command is due at this moment; a command that no timer drives always may be sent. -/
def State.due (s : State) (c : Instr) : Bool :=
  match c with
  | .zoneClockSecond => s.now % 1000 == 999
  | .minuteEvent => s.custody.minuteDue
  | .manifestExpiry => !s.expiredManifests.isEmpty
  | .rollover => rolloverSeconds ≤ s.conditioning.accumulator
  | .conditioningComplete => s.custody.register.any (Record.holdWithin 0)
  | .resetAnswerTimeout => ended s.now s.request.resetWait
  | .cycleTimerExpiry _ => s.line.cycleStart + cycleLimit ≤ s.now
  | .superframeEnd => s.line.superframeDue
  | .peerAbsent address => s.gonePeers.contains address.val
  | .offerWaitExpiry id => s.offerWaitOver id
  | .transitLimitExpiry id => (s.transfer.entries.filter TransferEntry.overdue).any fun e => e.id == id
  | .inboundTransitExpiry id => (s.transfer.entries.filter TransferEntry.abandoned).any fun e => e.id == id
  | .pollRound => s.climate.round.isNone && s.climate.nextRound ≤ s.now
  | .dockFrameSend => s.frameDue
  | .dockAnswerTimeout => ranOut s.now exchangeLimit (s.dock.outstanding.map (·.sentAt))
  | .wakingTimeout => s.dock.session == .waking && ranOut s.now wakingLimit s.dock.stateTimer
  | .identityTimeout => s.dock.session == .identifying && ranOut s.now identityLimit s.dock.stateTimer
  | .authTimeout => s.dock.session == .awaitingAuth && ranOut s.now (1000 * s.cfg.authWait) s.dock.authTimer
  | .idleTimeout => s.dock.session == .loading && ranOut s.now idleLimit s.dock.idleTimer
  | .refusedDisplayExpiry => s.dock.indicator == .refused && ranOut s.now refusedDisplay s.dock.displayTimer
  | .probeAnswerTimeout => ranOut s.now probeLimit (s.climate.round.map (·.askedAt))
  | .countdownExpiry => ended s.now s.fire.countdown
  | .pulseEnd => ended s.now s.fire.pulse
  | .soakExpiry => ended s.now s.fire.soak
  | _ => true

end Sys2Proof.Machine
end

