-- ==== Sys2Proof/Machine/Dispatch.lean ====
section
/-! DEFINITION. The dispatch of commands: one arm per row of spec/opcode_table.json, in the table's order. -/

namespace Sys2Proof.Machine

/-- The effect of a command on everything but the queue. -/
def exec (i : Instr) (s : State) : Host.Outcome State Fault Refusal :=
  match i with
  | .coldStart => Sys2Proof.Machine.execColdStart s
  | .warmReset => Sys2Proof.Machine.execWarmReset s
  | .zoneClockSecond => Sys2Proof.Machine.execZoneClockSecond s
  | .minuteEvent => Sys2Proof.Machine.execMinuteEvent s
  | .manifestExpiry => Sys2Proof.Machine.execManifestExpiry s
  | .rollover => Sys2Proof.Machine.execRollover s
  | .conditioningComplete => Sys2Proof.Machine.execConditioningComplete s
  | .enrol => Sys2Proof.Machine.execEnrol s
  | .retire => Sys2Proof.Machine.execRetire s
  | .shelve => Sys2Proof.Machine.execShelve s
  | .queryRecord => Sys2Proof.Machine.execQueryRecord s
  | .releaseSuspectShelve => Sys2Proof.Machine.execReleaseSuspectShelve s
  | .releaseSuspectCondition => Sys2Proof.Machine.execReleaseSuspectCondition s
  | .releaseSuspectRemove => Sys2Proof.Machine.execReleaseSuspectRemove s
  | .checkOut => Sys2Proof.Machine.execCheckOut s
  | .cancelManifest => Sys2Proof.Machine.execCancelManifest s
  | .authorize => Sys2Proof.Machine.execAuthorize s
  | .deny => Sys2Proof.Machine.execDeny s
  | .move => Sys2Proof.Machine.execMove s
  | .queryZone => Sys2Proof.Machine.execQueryZone s
  | .excursionClear => Sys2Proof.Machine.execExcursionClear s
  | .fireReset => Sys2Proof.Machine.execFireReset s
  | .configure => Sys2Proof.Machine.execConfigure s
  | .reset => Sys2Proof.Machine.execReset s
  | .unknownRequest => Sys2Proof.Machine.execUnknownRequest s
  | .resetAnswerTimeout => Sys2Proof.Machine.execResetAnswerTimeout s
  | .keyTurn on => Sys2Proof.Machine.execKeyTurn on s
  | .cycleMark mark => Sys2Proof.Machine.execCycleMark mark s
  | .cycleTimerExpiry readBack => Sys2Proof.Machine.execCycleTimerExpiry readBack s
  | .superframeEnd => Sys2Proof.Machine.execSuperframeEnd s
  | .peerAbsent address => Sys2Proof.Machine.execPeerAbsent address s
  | .alarmField others => Sys2Proof.Machine.execAlarmField others s
  | .beaconReceived slot frame => Sys2Proof.Machine.execBeaconReceived slot frame s
  | .requestReceived slot frame => Sys2Proof.Machine.execRequestReceived slot frame s
  | .peerMessageReceived slot kind frame => Sys2Proof.Machine.execPeerMessageReceived slot kind frame s
  | .ignoredMessage slot kind frame => Sys2Proof.Machine.execIgnoredMessage slot kind frame s
  | .unknownKindMessage slot kind frame => Sys2Proof.Machine.execUnknownKindMessage slot kind frame s
  | .addressConflict sign => Sys2Proof.Machine.execAddressConflict sign s
  | .slotStart => Sys2Proof.Machine.execSlotStart s
  | .slotEnd readBackSame accept refuse => Sys2Proof.Machine.execSlotEnd readBackSame accept refuse s
  | .offer => Sys2Proof.Machine.execOffer s
  | .take => Sys2Proof.Machine.execTake s
  | .decline => Sys2Proof.Machine.execDecline s
  | .withdraw => Sys2Proof.Machine.execWithdraw s
  | .arrived => Sys2Proof.Machine.execArrived s
  | .offerWaitExpiry cartridge => Sys2Proof.Machine.execOfferWaitExpiry cartridge s
  | .transitLimitExpiry cartridge => Sys2Proof.Machine.execTransitLimitExpiry cartridge s
  | .inboundTransitExpiry cartridge => Sys2Proof.Machine.execInboundTransitExpiry cartridge s
  | .caseArrival => Sys2Proof.Machine.execCaseArrival s
  | .caseRemoval => Sys2Proof.Machine.execCaseRemoval s
  | .closeKey => Sys2Proof.Machine.execCloseKey s
  | .cancelKey => Sys2Proof.Machine.execCancelKey s
  | .dockFrameSend => Sys2Proof.Machine.execDockFrameSend s
  | .dockAnswerTimeout => Sys2Proof.Machine.execDockAnswerTimeout s
  | .malformedCaseFrame bytes => Sys2Proof.Machine.execMalformedCaseFrame bytes s
  | .awake => Sys2Proof.Machine.execAwake s
  | .identity caseId badge count intent intervals => Sys2Proof.Machine.execIdentity caseId badge count intent intervals s
  | .scan cartridge => Sys2Proof.Machine.execScan cartridge s
  | .nothing => Sys2Proof.Machine.execNothing s
  | .echo count digest => Sys2Proof.Machine.execEcho count digest s
  | .done count => Sys2Proof.Machine.execDone count s
  | .wakingTimeout => Sys2Proof.Machine.execWakingTimeout s
  | .identityTimeout => Sys2Proof.Machine.execIdentityTimeout s
  | .authTimeout => Sys2Proof.Machine.execAuthTimeout s
  | .idleTimeout => Sys2Proof.Machine.execIdleTimeout s
  | .refusedDisplayExpiry => Sys2Proof.Machine.execRefusedDisplayExpiry s
  | .pollRound => Sys2Proof.Machine.execPollRound s
  | .probeAnswer bytes => Sys2Proof.Machine.execProbeAnswer bytes s
  | .probeAnswerTimeout => Sys2Proof.Machine.execProbeAnswerTimeout s
  | .channelEvent channel state => Sys2Proof.Machine.execChannelEvent channel state s
  | .manualCallOperation => Sys2Proof.Machine.execManualCallOperation s
  | .manualCallRelease => Sys2Proof.Machine.execManualCallRelease s
  | .holdOrIsolateChange switch on => Sys2Proof.Machine.execHoldOrIsolateChange switch on s
  | .doorChange isOpen => Sys2Proof.Machine.execDoorChange isOpen s
  | .agentReadyChange ready => Sys2Proof.Machine.execAgentReadyChange ready s
  | .countdownExpiry => Sys2Proof.Machine.execCountdownExpiry s
  | .pulseEnd => Sys2Proof.Machine.execPulseEnd s
  | .soakExpiry => Sys2Proof.Machine.execSoakExpiry s
  | .addressStrapChange address => Sys2Proof.Machine.execAddressStrapChange address s

end Sys2Proof.Machine
end

