-- ==== Sys2Proof/Machine/Step.lean ====
section
/-! DEFINITION. One step of the block: the command at the front of the queue, or with none waiting a millisecond of the time
base (log 4). -/

namespace Sys2Proof.Machine

/-- With no command waiting a millisecond passes, up to the last before the next whole second, which ZONE_CLOCK_SECOND brings
(log 4). -/
def State.tick (s : State) : State := if s.now % 1000 = 999 then s else s.withNow (s.now + 1)

/-- One step: the front command acts on the state with the queue's rest. -/
def step (s : State) : Host.Outcome State Fault Refusal :=
  match s.pending with
  | [] => .next s.tick
  | c :: rest => exec c (s.withPending rest)

/-- The state with the command that a word spells put at the front of its queue; unchanged where it spells none. -/
def State.withFetchWord (s : State) (nbits w : Nat) : State :=
  match Sys2Proof.decodeTableWord nbits w with
  | none => s
  | some c => s.withPending (c :: s.pending)

end Sys2Proof.Machine
end

