-- ==== Sys2Proof/Safety.lean ====
section
/-! DEFINITION. The terms that claims are made in: when a request stands ready and what its answer leaves, the frames of a
step, and the invariants that every step keeps. -/

namespace Sys2Proof.Machine

/-! ### Requests and messages standing ready -/

/-- A request stands at the head of its queue and may be taken: no follow-on step is due, no RESET waits, and the answer queue
has a free place (R177, R184). -/
def State.ready (s : State) (r : Request) (rest : List Request) : Prop :=
  s.settled = true ∧ s.request.resetWait = none ∧ s.line.answers.length < 8 ∧ s.line.requests = r :: rest

/-- The request of a kind passes the checks that the request unit makes before its layout (R178). -/
def State.passes (s : State) (kind : RequestKind) : Prop :=
  (s.configured = true ∨ kind = .configure ∨ kind = .queryZone) ∧ (kind.custodial = true → s.pins.keyOn = true)

/-- The state with the head request gone and its one answer at the tail of the answer queue (R177). -/
def State.answered (s : State) (r : Request) (rest : List Request) (kind : Byte) (result : Result) (content : List Byte) : State :=
  { s with line := { s.line with requests := rest,
                                 answers := s.line.answers ++ [⟨r.sender, r.tag, kind, result, content⟩] } }

/-- A transfer message stands at the head of its queue and may be taken: no follow-on step is due, and the peer output queue
has a free place (R145). -/
def State.peerReady (s : State) (m : PeerIn) (rest : List PeerIn) : Prop :=
  s.settled = true ∧ s.line.peerOut.length < 16 ∧ s.line.peerIn = m :: rest

/-- The state with the head transfer message gone. -/
def State.peerTaken (s : State) (rest : List PeerIn) : State := { s with line := { s.line with peerIn := rest } }

/-- The row that takes a request of a kind with those fields; a RELEASE SUSPECT is taken by the row of its disposition, or by any of
the three where its layout shows none of them (log 17). -/
def takesRequest (c : Instr) (kind : RequestKind) (fields : List Byte) : Bool :=
  match kind, c with
  | .enrol, .enrol => true
  | .retire, .retire => true
  | .shelve, .shelve => true
  | .queryRecord, .queryRecord => true
  | .releaseSuspect, .releaseSuspectShelve => dispositionFits 1 fields
  | .releaseSuspect, .releaseSuspectCondition => dispositionFits 2 fields
  | .releaseSuspect, .releaseSuspectRemove => dispositionFits 3 fields
  | .checkOut, .checkOut => true
  | .cancelManifest, .cancelManifest => true
  | .authorize, .authorize => true
  | .deny, .deny => true
  | .move, .move => true
  | .queryZone, .queryZone => true
  | .excursionClear, .excursionClear => true
  | .fireReset, .fireReset => true
  | .configure, .configure => true
  | .reset, .reset => true
  | _, _ => false

/-- The kind byte of a request kind (11.1). -/
def kindByte (kind : RequestKind) : Byte := BitVec.ofNat 8 (requestKindCode kind)

/-- The rows that are follow-on steps of a tick or a mark, and the cold start: they are taken without settling first (log 1). -/
def unsettledRow : Instr → Bool
  | .coldStart => true
  | .manifestExpiry => true
  | .rollover => true
  | .conditioningComplete => true
  | .superframeEnd => true
  | .peerAbsent _ => true
  | .transitLimitExpiry _ => true
  | .inboundTransitExpiry _ => true
  | _ => false

/-- The case answer that a command brings; none where it brings none, or brings bytes (R48, R191). -/
def caseAnswerOf : Instr → Option CaseFrame
  | .awake => some .awake
  | .identity caseId badge count intent intervals => some (.identity caseId badge count intent intervals)
  | .scan id => some (.scan id)
  | .nothing => some .nothing
  | .echo count digest => some (.echo count digest)
  | .done count => some (.done count)
  | _ => none

/-! ### Ends, entries and evaluations -/

/-- What the end of a session before its commit point leaves, from the state `s` in which the end is taken, whose exchange is the one
given (R37, R50, R71, R73): the records reverted, the bound manifest OPEN again, the scan list empty, the context IDLE, the indicator
REFUSED, the ABORT sent or held, and the event emitted; nothing else is changed. -/
def State.endedUncommitted (s : State) (o : SessionOutcome) (exchange : Option Outstanding) (t : State) : Prop :=
  t = { s with custody := t.custody, dock := t.dock, notices := t.notices } ∧
    t.custody = { s.custody with
      manifests := t.custody.manifests,
      register := s.custody.register.map fun r =>
        match r.st with
        | .loading p m => { r with st := .reserved p m, stateMinute := s.minute }
        | .returning c => { r with st := .out c, stateMinute := s.minute }
        | _ => r } ∧
    (∀ n, t.manifest? n = if s.dock.manifest = some n then (s.manifest? n).map (fun m => { m with state := .waiting }) else s.manifest? n) ∧
    t.dock = { idleDock s.dock.number with
      outstanding := exchange,
      pendingAbort := if exchange.isSome then some o else none,
      indicator := .refused,
      displayTimer := some s.now,
      lastFrame := if exchange.isSome then s.dock.lastFrame else some (.abort o),
      lastSentAt := if exchange.isSome then s.dock.lastSentAt else some s.now } ∧
    t.notices = (s.emit (.sessionEnded
      { s.report o s.dock.scans.length with reverted := some s.dock.scans.length })).notices

/-- What the removal of the case leaves of a session before its commit point: as `State.endedUncommitted`, but with the exchange ended
and no ABORT (R43, R50). -/
def State.endedByRemoval (s t : State) : Prop :=
  ∃ u, s.endedUncommitted .caseRemoved none u ∧
    t = { u with dock := { u.dock with lastFrame := s.dock.lastFrame, lastSentAt := s.dock.lastSentAt } }

/-- The sequence state that an evaluation gives in QUIET, PRE-ALERT and ALARM-1, and leaves alone elsewhere (R121, R122). -/
def State.evaluatedSeq (s : State) : Seq :=
  if 3 ≤ seqCode s.fire.seq then s.fire.seq
  else if s.confirmationCondition ∨ (s.fire.callLatch ∧ s.cfg.manualConfirms) then
    (if s.fire.holdOn ∨ s.fire.isolateOn then .confirmed else .preDischarge)
  else if s.fire.seq ≠ .alarm1 ∧ (s.alarmCondition ∨ s.fire.callLatch) then .alarm1
  else if s.fire.seq = .quiet ∧ s.alertCondition then .preAlert
  else if s.fire.seq = .preAlert ∧ ¬s.alertCondition then .quiet
  else s.fire.seq

/-- The climate unit with each output that is ON turned OFF, the time recorded, where a forcing condition holds in `t`, and as it stands
otherwise (R106, R107). -/
def State.climateForcedIn (s t : State) : ClimateUnit :=
  { s.climate with
    humidify := if t.forcing = true ∧ s.climate.humidify.on = true then ⟨false, some s.now⟩ else s.climate.humidify,
    dehumidify := if t.forcing = true ∧ s.climate.dehumidify.on = true then ⟨false, some s.now⟩ else s.climate.dehumidify }

/-- The state with what a judgement of the neighbour-alert flag may change taken from `t`: the flag, the sounder, the damper, the two
climate outputs and the notices (R107, R134, R136, R137). -/
def State.afterFlag (s t : State) : State :=
  { s with
    fire := { s.fire with neighbourAlert := t.fire.neighbourAlert, sounder := t.fire.sounder, damperClosed := t.fire.damperClosed },
    climate := { s.climate with humidify := t.climate.humidify, dehumidify := t.climate.dehumidify },
    notices := t.notices }

/-- The state with what a change of the sequence state may change taken from `t`: the fire unit, the two climate outputs and the
notices (R107, R128, R129). -/
def State.afterSequence (s t : State) : State :=
  { s with
    fire := t.fire,
    climate := { s.climate with humidify := t.climate.humidify, dehumidify := t.climate.dehumidify },
    notices := t.notices }

/-- What a rollover leaves (R88, R89): the accumulator at 0, every CONDITIONING record lowered by one or, where that spends its hold,
SHELVED as it stood, and an event for each of those in identifier order. -/
def State.rolledOver (s : State) : State :=
  ({ s with
    conditioning := ⟨0⟩,
    custody := { s.custody with register := s.custody.register.map fun r =>
      match r.st with
      | .conditioning p h =>
        if h ≤ 1 then { r with st := .shelved p, stateMinute := s.minute } else { r with st := .conditioning p (h - 1) }
      | _ => r } } : State).emitAll
    (s.custody.register.filterMap fun r =>
      match r.st with
      | .conditioning p h => if h ≤ 1 then some (.conditioningComplete r.id p r.exposure s.minute) else none
      | _ => none)

/-! ### The climate -/

/-- What a miss leaves of a probe's record, by the table of R100. -/
def ProbeRecord.missed (p : ProbeRecord) (roundStart : Nat) (after : ProbeRecord) : Prop :=
  (p.state = .failed → after = p) ∧ (p.state ≠ .failed → roundStart - p.stamp ≤ 30 → after = { p with state := .stale }) ∧
    (p.state ≠ .failed → 30 < roundStart - p.stamp → after = { p with state := .failed, reading := none })

/-- The usable probes are the polled ones that are VALID or STALE, and the zone value is UNKNOWN with none of them, otherwise the means
of their readings, a half rounded upward (R97, R102). -/
def State.zoneFormed (t : State) : Prop :=
  (∀ k r, (k, r) ∈ t.usable ↔ 1 ≤ k ∧ k ≤ (if t.configured then t.cfg.probeCount else 4) ∧
    ∃ p, t.climate.probes[k - 1]? = some p ∧ p.state ≠ .failed ∧ p.reading = some r) ∧
  (t.climate.zone = none ↔ t.usable = []) ∧
  ∀ z, t.climate.zone = some z →
    let n : Int := t.usable.length
    let rh : Int := (t.usable.map fun r => (r.2.rh : Int)).sum
    let temperature : Int := (t.usable.map fun r => r.2.temperature).sum
    2 * n * z.rh ≤ 2 * rh + n ∧ 2 * rh + n < 2 * n * (z.rh + 1) ∧
      2 * n * z.temperature ≤ 2 * temperature + n ∧ 2 * temperature + n < 2 * n * (z.temperature + 1)

/-- The band and the spread are judged on the zone value and the usable readings (R103, R104). -/
def State.bandFormed (t : State) : Prop :=
  (t.climate.inBand = true ↔ t.configured = true ∧ ∃ z, t.climate.zone = some z ∧
    ((z.rh : Int) - t.cfg.rhSet).natAbs ≤ t.cfg.rhBand ∧ (z.temperature - t.cfg.tempSet).natAbs ≤ t.cfg.tempBand) ∧
  (t.climate.spreadHigh = true ↔ ∃ a ∈ t.usable, ∃ b ∈ t.usable, b.2.rh + 80 < a.2.rh)

/-! ### Configuration -/

/-- What a numeric item takes of a CONFIGURE's entries: the value of its last entry, or the nearer end of its range for one outside, and
its default without an entry; and it is named in the answer just where it was clamped (R181, R182, R190). -/
def itemTaken (own sender : Nat) (entries : List ConfigEntry) (item low high dflt : Nat) (v : Nat) : Prop :=
  match (entries.filter fun e => e.item == item).getLast? with
  | none => v = dflt ∧ item ∉ namedItems own sender entries
  | some e =>
    (e.value < low → v = low) ∧ ((high : Int) < e.value → v = high) ∧ ((low : Int) ≤ e.value → e.value ≤ high → (v : Int) = e.value) ∧
      (item ∈ namedItems own sender entries ↔ e.value < low ∨ (high : Int) < e.value)

/-- What a source's level takes of a CONFIGURE's entries, by its range, whether it may be OFF, and its default (R183, R185); a range of
one level is a fixed level. -/
def levelTaken (entries : List ConfigEntry) (c : ConfigRecord) (source low high : Nat) (off : Bool) (dflt : Nat) : Prop :=
  c.levels[source]? = some (match (entries.filter fun e => e.item == 22 && e.third == source).getLast? with
    | none => some dflt
    | some e => if e.fourth = 255 then (if off then none else some dflt) else some (max low (min high e.fourth)))

/-! ### Invariants -/

/-- The register and the transfer table are in their canonical form: strictly rising by identifier (log 16). -/
def State.canonical (s : State) : Bool :=
  sortedBy Record.id s.custody.register && sortedBy TransferEntry.id s.transfer.entries

/-- Each queue holds at most its depth (R169). -/
def State.queuesBounded (s : State) : Bool :=
  s.line.requests.length ≤ 8 && s.line.answers.length ≤ 8 && s.line.peerIn.length ≤ 8 && s.line.peerOut.length ≤ 16

/-- The two climate outputs are never on together, and both are off while a forcing condition holds (R105, R107). -/
def State.climateHeld (s : State) : Bool :=
  !(s.climate.humidify.on && s.climate.dehumidify.on) &&
    (!s.forcing || (!s.climate.humidify.on && !s.climate.dehumidify.on))

/-- The fire outputs and timers are those of the sequence state: the release active in DISCHARGE alone, each timer running in its
own state alone, the sounder and the damper by their tables (R125, R128, R133, R134). -/
def State.fireHeld (s : State) : Bool :=
  s.fire.release == decide (s.fire.seq = .discharge) && s.fire.countdown.isSome == decide (s.fire.seq = .preDischarge) &&
    s.fire.pulse.isSome == decide (s.fire.seq = .discharge) && s.fire.soak.isSome == decide (s.fire.seq = .soak) &&
    s.fire.sounder == sounderFor s.fire.seq s.fire.generalSeen &&
    s.fire.damperClosed == damperFor s.fire.seq s.fire.neighbourAlert

/-- The counters stay in their ranges: the zone clock, the excursion account, the accumulator, the session number and the fault count,
the transfer number, the own cycle number and the missed-superframe counts, and each pending notice's repeat and in-slot count (R13,
R42, R76, R108, R144, R163, R172, R185). -/
def State.countersHeld (s : State) : Bool :=
  s.custody.zoneClock ≤ 4294967295 && s.climate.account ≤ 16777215 && s.conditioning.accumulator ≤ 59 &&
    s.dock.number ≤ 255 && s.dock.faults ≤ 2 && s.transfer.number ≤ 255 && s.line.cycle ≤ 9 &&
    (s.line.peers.all fun p => p.missed ≤ 3) &&
    s.notices.pending.all fun n =>
      match n with
      | none => true
      | some p => p.repeats ≤ 255 && p.inSlot ≤ 256

/-- The entry of the transfer table that a record in TRANSFERRING or INBOUND needs: the identifier's own, under the same peer and
number, OUT or IN as the state (R143). -/
def State.entryFits (s : State) (r : Record) : Bool :=
  match r.st, s.entry r.id with
  | .transferring p _, some e => e.direction == .out && e.peer == p.station && e.number == p.number
  | .inbound p _, some e => e.direction == .in_ && e.peer == p.station && e.number == p.number
  | .transferring _ _, none => false
  | .inbound _ _, none => false
  | _, _ => true

/-- The record that a transfer entry names is in TRANSFERRING or INBOUND (R143). -/
def State.recordFits (s : State) (e : TransferEntry) : Bool :=
  match s.find e.id with
  | none => false
  | some r => r.st.code == 7 || r.st.code == 8

/-- Records and transfer entries name each other, and the table holds at most 8 (R143). -/
def State.transfersMatch (s : State) : Bool :=
  s.custody.register.all s.entryFits && s.transfer.entries.all s.recordFits && s.transfer.entries.length ≤ 8

/-- A record in LOADING or RETURNING (R138). -/
def Record.inMovement (r : Record) : Bool := r.st.code == 2 || r.st.code == 4

/-- A record in LOADING or RETURNING is named by a RECORD entry of the scan list (R58). -/
def State.listed (s : State) (r : Record) : Bool :=
  !r.inMovement || s.dock.scans.any fun e => decide (e.id = r.id) && !e.isUnregistered

/-- The scan list holds no identifier twice and at most 32 entries; outside LOADING and SEALING it is empty; each entry stands as a
commit needs it; and no record is in LOADING or RETURNING but those of the scan list (R58, R71). -/
def State.scansMatch (s : State) : Bool :=
  s.dock.scans.length ≤ 32 && decide (s.dock.scans.map (·.id)).Nodup &&
    (s.dock.scans.isEmpty || s.dock.session == .loading || s.dock.session == .sealing) && s.dock.scans.all s.entryReady &&
    s.custody.register.all s.listed

/-- In CONFIRMED and later no session is before its commit point and no transfer entry is OFFERED (R138, R155). -/
def State.movementStopped (s : State) : Bool :=
  seqCode s.fire.seq < 3 || (!s.dock.session.beforeCommit && s.transfer.entries.all fun e => !e.isOffered)

/-- The manifest that a DEPART session in LOADING or SEALING has bound (R34, R36, R37). -/
def State.boundManifest (s : State) : Option Nat :=
  if s.dock.intent != some .returning && (s.dock.session == .loading || s.dock.session == .sealing) then s.dock.manifest else none

/-- A member of a manifest has a record that is RESERVED for it, or LOADING for it while the manifest is IN SESSION (R25, R26, R34). -/
def State.memberFits (s : State) (number : Nat) (m : Manifest) (id : Ident) : Bool :=
  match s.find id with
  | none => false
  | some r =>
    match r.st with
    | .reserved _ n => n == number
    | .loading _ n => n == number && m.state == .inSession
    | _ => false

/-- A manifest of the table, by its number: 1 to 32 members, none twice, each standing as a member, and IN SESSION just when the
session has bound it. -/
def State.manifestFits (s : State) (number : Nat) : Bool :=
  match s.manifest? number with
  | none => true
  | some m =>
    1 ≤ m.members.length && m.members.length ≤ 32 && decide m.members.Nodup && m.members.all (s.memberFits number m) &&
      (m.state == .inSession) == (s.boundManifest == some number)

/-- A record in RESERVED or LOADING is a member of the manifest that it names (R26). -/
def State.ownerFits (s : State) (r : Record) : Bool :=
  match r.st.manifest with
  | none => true
  | some number =>
    match s.manifest? number with
    | none => false
    | some m => m.members.contains r.id

/-- The manifest table holds four entries, it and the records in RESERVED and LOADING name each other, and a bound manifest is in it
(R25, R26, R34). -/
def State.membersMatch (s : State) : Bool :=
  s.custody.manifests.length == 4 && [1, 2, 3, 4].all s.manifestFits && s.custody.register.all s.ownerFits &&
    s.boundManifest.all fun number => (s.manifest? number).isSome

/-- The hold of a CONDITIONING record, the prior hold of one that is TRANSFERRING and the advised hold of a SUSPECT one lie between 1 and
the ceiling; the carried hold of an INBOUND one is at least 1, and is lowered to the ceiling only when SHELVE uses it (R6, R7, R90, R156, R158). -/
def Record.holdFits (ceiling : Nat) (r : Record) : Bool :=
  match r.st with
  | .conditioning _ hold => 1 ≤ hold && hold ≤ ceiling
  | .transferring _ restore =>
    match restore.hold with
    | none => true
    | some hold => 1 ≤ hold && hold ≤ ceiling
  | .suspect _ (some hold) _ => 1 ≤ hold && hold ≤ ceiling
  | .inbound _ (some hold) => 1 ≤ hold
  | _ => true

/-- Every hold lies in its range; and a station not yet CONFIGURED has no record, no session and no transfer message waiting, so that
the ceiling its CONFIGURE sets is the ceiling of every hold (R44, R90, R168, R178, R182). -/
def State.holdsBounded (s : State) : Bool :=
  s.custody.register.all (Record.holdFits s.cfg.ceiling) && 1 ≤ s.cfg.ceiling &&
    (s.configured || (s.custody.register.isEmpty && s.dock.session == .idle && s.line.peerIn.isEmpty))

/-- The custody invariant: canonical tables (log 16), records and transfer entries matched, the scan list matched, manifests and their
members matched, movement stopped by a confirmed fire, and the holds in their ranges. -/
def State.custodyHeld (s : State) : Bool :=
  s.canonical && s.transfersMatch && s.scansMatch && s.membersMatch && s.movementStopped && s.holdsBounded

end Sys2Proof.Machine
end

