-- ==== Sys2Proof/Certificates/Slice0/Obligations.lean ====
section
/-! DEFINITION. The statements: what the commands of each family do, by the numbered rules of spec/, and what every step keeps. -/

section

open Sys2Proof Sys2Proof.Machine

/-! ### The machine -/

/-- O1 (log 4): the step takes the front command; with none waiting a millisecond passes, up to the last before a whole second. -/
def Obligations.StepRunsFrontCommand : Prop :=
  (∀ (s : State) (c : Instr) (rest : List Instr), s.pending = c :: rest → step s = exec c { s with pending := rest }) ∧
    ∀ s : State, s.pending = [] → step s = .next { s with now := if s.now % 1000 = 999 then s.now else s.now + 1 }

/-- O2 (logs 2 and 4): every command answers a next state and leaves the queue to the step. That one whose condition does not hold answers next
as well is the model's choice (log 2); so is that no command but the second and the cold start moves the time base (log 4). -/
def Obligations.EveryCommandAnswersAndKeepsQueue : Prop :=
  ∀ (c : Instr) (s : State), ∃ t, exec c s = .next t ∧ t.pending = s.pending ∧
    (c ≠ .coldStart → c ≠ .zoneClockSecond → t.now = s.now)

/-- O3 (log 1, the model's reading): what a tick or a mark leaves due is settled before any other command acts. -/
def Obligations.DueStepsSettleFirst : Prop :=
  ∀ s : State, s.settle.settled = true ∧ ∀ c : Instr, unsettledRow c = false → exec c s = exec c s.settle

/-! ### Resets -/

/-- O4 (R24, R115, R139, R141): a cold start. Every block but the fire and the notice unit takes its cold-start value; the fire unit records its
inputs and is otherwise cold, in the sequence state that the survey's evaluation gives, with the timer and the outputs of that state; with every
channel NORMAL and the call point RELEASED it is cold as a whole, QUIET, and nothing is pending. The time base at 0 is log 4, the round time line
from 0 log 23, and the outputs kept as fields log 31. -/
def Obligations.ColdStartEmptiesEveryBlock : Prop :=
  ∀ (s : State) (q : Seq), q = ({ State.cold s.pins 0 s.free s.pending with
      fire := { coldFire s.pins with callLatch := s.pins.callOperated } } : State).evaluatedSeq →
    ∃ t, exec .coldStart s = .next t ∧
      t = { State.cold s.pins 0 s.free s.pending with fire := t.fire, notices := t.notices } ∧
      t.custody = ⟨[], [none, none, none, none], 0, false⟩ ∧ t.request = ⟨none, none, none⟩ ∧ t.transfer = ⟨[], 0⟩ ∧
      t.line.address = s.pins.straps ∧ t.line.aligned = false ∧ t.line.cycle = 0 ∧ t.dock = idleDock 0 ∧
      t.fire.channels = s.pins.channels ∧ t.fire.callOperated = s.pins.callOperated ∧
      t.fire.callLatch = s.pins.callOperated ∧ t.fire.holdOn = s.pins.holdOn ∧ t.fire.isolateOn = s.pins.isolateOn ∧
      t.fire.doorOpen = s.pins.doorOpen ∧ t.fire.agentReady = s.pins.agentReady ∧
      t.fire = { coldFire s.pins with
        callLatch := s.pins.callOperated, seq := q,
        countdown := if q = .preDischarge then some 30000 else none,
        sounder := sounderFor q false, damperClosed := damperFor q false } ∧
      ((∀ x ∈ s.pins.channels, x = .normal) → s.pins.callOperated = false →
        t.fire = coldFire s.pins ∧ t.fire.seq = .quiet ∧ t.notices.pending = List.replicate 16 none)

/-- O5 (R23, R39, R74, R93, R114, R139, R140, R161, R175, R176, R184, R188): a warm reset by the reset input, or by a RESET whose 5 s have run
out: the register normalised, the other blocks reset, the configuration, the clock, the account, the latch and the numbers kept, and RESTART
pending with its counts. The fire unit is cold but for its inputs as they stand on the pins, the call latch, and the sequence state that the
survey's evaluation gives, with the timer and the outputs of that state. That an announced minute is kept is log 15, the round time line log 23,
the outputs kept as fields log 31, and what an answer for the abandoned round meets log 35. -/
def Obligations.WarmResetNormalisesAndKeeps : Prop :=
  ∀ (s : State) (c : Instr) (cause : ResetCause) (q : Seq), s.settled = true →
    (c = .warmReset ∧ cause = .resetInput ∨ c = .resetAnswerTimeout ∧ s.request.resetWait.isSome ∧ cause = .resetRequest) →
    q = ({ s with fire := { coldFire s.pins with callLatch := s.pins.callOperated } } : State).evaluatedSeq →
    ∃ t, exec c s = .next t ∧ t.request = { s.request with resetWait := none } ∧
      t.custody = { s.custody with
        manifests := [none, none, none, none],
        register := s.custody.register.filterMap fun r =>
          match r.st with
          | .reserved p _ => some { r with st := .shelved (some p), stateMinute := s.minute }
          | .loading p _ => some { r with st := .shelved (some p), stateMinute := s.minute }
          | .returning f => some { r with st := .out f, stateMinute := s.minute }
          | .transferring _ restore =>
            if takenEntry s.transfer.entries r.id then
              some { r with st := .suspect none restore.hold .transferInterrupted, stateMinute := s.minute }
            else some { r with st := restore.back s.cfg.ceiling, stateMinute := s.minute }
          | .inbound _ _ => none
          | _ => some r } ∧
      t.dock = idleDock s.dock.number ∧ t.conditioning = ⟨0⟩ ∧ t.transfer = ⟨[], s.transfer.number⟩ ∧
      t.climate = { coldClimate with
        roundStart := s.climate.roundStart, nextRound := s.now, late := t.climate.late,
        humidify := ⟨false, some s.now⟩, dehumidify := ⟨false, some s.now⟩,
        account := s.climate.account, latch := s.climate.latch } ∧
      (∀ k, k ∈ t.climate.late ↔ k ∈ s.climate.late ∨ ∃ round, s.climate.round = some round ∧ round.asked = k) ∧
      t.line = freshLine s.pins.straps s.now (s.line.peers.map fun p => p.neighbour) ∧
      t.pins = s.pins ∧ t.now = s.now ∧ t.free = s.free ∧ t.pending = s.pending ∧
      t.fire = { coldFire s.pins with
        callLatch := s.pins.callOperated, seq := q,
        countdown := if q = .preDischarge then some (s.now + 1000 * s.cfg.preDischarge) else none,
        sounder := sounderFor q false, damperClosed := damperFor q false } ∧
      (q = .quiet → t.pendingNotice 0 = none) ∧
      (s.records 15 = true → t.pendingNotice 15 = some ⟨.restart cause (s.custody.register.countP (interrupted s.transfer.entries))
        (s.custody.register.countP fun r => r.st.code == 8) s.custody.zoneClock, 0, s.custody.zoneClock, false, 0⟩) ∧
      (∀ n, n ≠ 0 → n ≠ 2 → n ≠ 15 → t.pendingNotice n = none)

/-- O6 (R118, R119, R162, R179): the inputs that are only recorded: the key, the straps, the door, the agent store, and the release of the
call point, which leaves the latch. -/
def Obligations.RecordedInputsChangeNothingElse : Prop :=
  ∀ s : State, s.settled = true →
    (∀ on, exec (.keyTurn on) s = .next { s with pins := { s.pins with keyOn := on } }) ∧
    (∀ a : Fin 16, exec (.addressStrapChange a) s = .next { s with pins := { s.pins with straps := a.val } }) ∧
    (∀ o, exec (.doorChange o) s =
      .next { s with pins := { s.pins with doorOpen := o }, fire := { s.fire with doorOpen := o } }) ∧
    (∀ r, exec (.agentReadyChange r) s =
      .next { s with pins := { s.pins with agentReady := r }, fire := { s.fire with agentReady := r } }) ∧
    exec .manualCallRelease s =
      .next { s with pins := { s.pins with callOperated := false }, fire := { s.fire with callOperated := false } }

/-! ### Time -/

/-- O7 (R13, R14, R76, R87, R88, R89, R94): a second. The zone clock gains one and announces the minute at a multiple of 60; while the three running
conditions hold the accumulator gains one, and the gain that completes the minute is the rollover, in the same step; at the top of the clock nothing
but the time base moves. That the time base goes to the next whole second is log 4, that the minute stands announced until it is taken log 15, and
that the rollover is within this command log 1. -/
def Obligations.SecondCountsClockAndAccumulator : Prop :=
  ∀ s u : State, s.settled = true → s.custody.minuteDue = false →
    u = { s with
      now := (s.now / 1000 + 1) * 1000,
      custody := { s.custody with
        zoneClock := s.custody.zoneClock + 1, minuteDue := decide ((s.custody.zoneClock + 1) % 60 = 0) } } →
    (s.custody.zoneClock < 4294967295 →
      (¬(s.configured = true ∧ s.climate.inBand = true ∧ (s.fire.seq = .quiet ∨ s.fire.seq = .preAlert)) →
        exec .zoneClockSecond s = .next u) ∧
      (s.configured = true → s.climate.inBand = true → s.fire.seq = .quiet ∨ s.fire.seq = .preAlert →
        (s.conditioning.accumulator < 59 →
          exec .zoneClockSecond s = .next { u with conditioning := ⟨s.conditioning.accumulator + 1⟩ }) ∧
        (59 ≤ s.conditioning.accumulator → exec .zoneClockSecond s = .next u.rolledOver))) ∧
    (4294967295 ≤ s.custody.zoneClock → exec .zoneClockSecond s = .next { s with now := (s.now / 1000 + 1) * 1000 })

/-- O8 (R14, R30, R108, R109, R151): a minute event. OPEN lifetimes and running transit limits fall by one; a configured zone is charged
nothing IN BAND, U with the value UNKNOWN, and its excesses otherwise, saturating; reaching the limit sets the latch with one EXCURSION
event. A lifetime or a limit that falls to 0 stands so until its expiry, which R31, R152 and R159 place at this minute event, is taken: that
split is the model's reading (log 1). -/
def Obligations.MinuteLowersLimitsAndCharges : Prop :=
  ∀ s : State, s.settled = true → s.custody.minuteDue = true →
    ∃ t, exec .minuteEvent s = .next t ∧
      t = { s with custody := t.custody, transfer := t.transfer, climate := t.climate, notices := t.notices } ∧
      t.custody = { s.custody with
        minuteDue := false,
        manifests := s.custody.manifests.map fun m =>
          m.map fun x => if x.state = .waiting then { x with lifetime := x.lifetime - 1 } else x } ∧
      t.transfer = { s.transfer with
        entries := s.transfer.entries.map fun e =>
          match e.state with
          | .offered _ => e
          | .taken l => { e with state := .taken (l - 1) }
          | .awaitingArrival l => { e with state := .awaitingArrival (l - 1) } } ∧
      (s.configured = false → t.climate = s.climate ∧ t.notices = s.notices) ∧
      (s.configured = true →
        ∃ account, account = min 16777215 (s.climate.account +
          if s.climate.inBand then 0
          else match s.climate.zone with
            | none => s.cfg.uncovered
            | some z => (((z.rh : Int) - s.cfg.rhSet).natAbs - s.cfg.rhBand) +
                2 * ((z.temperature - s.cfg.tempSet).natAbs - s.cfg.tempBand)) ∧
          t.climate = { s.climate with account := account, latch := s.climate.latch || decide (s.cfg.excursionLimit ≤ account) } ∧
          t.notices = if s.climate.latch = false ∧ s.cfg.excursionLimit ≤ account then
              (s.emit (.excursion account s.minute)).notices
            else s.notices)

/-- O9 (R31): an OPEN manifest whose lifetime has reached 0, the lowest such, expires: members back to SHELVED, entry free, event. -/
def Obligations.ExpiredManifestFreesItsMembers : Prop :=
  ∀ (s : State) (n : Nat) (m : Manifest), 1 ≤ n → s.custody.manifests[n - 1]? = some (some m) →
    m.state = .waiting → m.lifetime = 0 →
    (∀ k x, k < n - 1 → s.custody.manifests[k]? = some (some x) → ¬(x.state = .waiting ∧ x.lifetime = 0)) →
    exec .manifestExpiry s = .next (({ s with custody := { s.custody with
      manifests := s.custody.manifests.set (n - 1) none,
      register := s.custody.register.map fun r =>
        match r.st with
        | .reserved p k => if k = n then { r with st := .shelved (some p), stateMinute := s.minute } else r
        | _ => r } } : State).emit (.manifestEnded n .expired m.members.length))

/-- O10 (R88, R89, log 1): the two rows that R88 and R89 place within the second, which O7 states. With an accumulator at 60 a ROLLOVER is the
rollover: every remaining hold lowered by one, the records whose hold is spent SHELVED in the same change, and their events; otherwise it has no
effect. CONDITIONING COMPLETE releases the first record that stands CONDITIONING with no hold left. No second leaves such a state behind: what the
rows do alone is the model's reading (log 1). -/
def Obligations.RolloverLowersAndReleasesHolds : Prop :=
  (∀ s : State, 60 ≤ s.conditioning.accumulator → exec .rollover s = .next s.rolledOver) ∧
  (∀ s : State, s.conditioning.accumulator < 60 → exec .rollover s = .next s) ∧
  ∀ (s : State) (pre post : List Record) (r : Record) (p : Option Position), s.canonical = true →
    s.custody.register = pre ++ r :: post → r.st = .conditioning p 0 → (∀ x ∈ pre, ∀ q, x.st ≠ .conditioning q 0) →
    exec .conditioningComplete s = .next (({ s with custody := { s.custody with
      register := pre ++ { r with st := .shelved p, stateMinute := s.minute } :: post } } : State).emit
        (.conditioningComplete r.id p r.exposure s.minute))

/-! ### Requests on records -/

/-- O11 (R15): ENROL, by the table of its checks; a created record is SHELVED at the position, without exposure, log absent clear. -/
def Obligations.EnrolAnswersByItsChecks : Prop :=
  ∀ (s : State) (r : Request) (rest : List Request) (id : Ident) (rack slot : Byte),
    s.ready r rest → s.passes .enrol → id.length = 10 → r.payload = 1 :: (id ++ [rack, slot]) →
    (identOk id = false ∨ 63 < slot.toNat → exec .enrol s = .next (s.answered r rest 1 .malformed [])) ∧
    (identOk id = true → slot.toNat ≤ 63 → s.known id = true → exec .enrol s = .next (s.answered r rest 1 .duplicate [])) ∧
    (identOk id = true → slot.toNat ≤ 63 → s.known id = false → 1024 ≤ s.occupancy →
      exec .enrol s = .next (s.answered r rest 1 .registerFull [])) ∧
    (identOk id = true → slot.toNat ≤ 63 → s.known id = false → s.occupancy < 1024 →
      ∃ t, exec .enrol s = .next t ∧
        t = { s.answered r rest 1 .done [] with custody := { s.custody with register := t.custody.register } } ∧
        t.find id = some ⟨id, .shelved (some ⟨rack.toNat, slot.toNat⟩), none, false, s.minute⟩ ∧
        (∀ other, other ≠ id → t.find other = s.find other) ∧ t.occupancy = s.occupancy + 1)

/-- O12 (R16): RETIRE, by the table of its checks; the deletion frees the identifier and lowers the occupancy by one. -/
def Obligations.RetireDeletesShelvedRecord : Prop :=
  ∀ (s : State) (r : Request) (rest : List Request) (id : Ident),
    s.ready r rest → s.passes .retire → id.length = 10 → r.payload = 2 :: id →
    (identOk id = false → exec .retire s = .next (s.answered r rest 2 .malformed [])) ∧
    (identOk id = true → s.find id = none → exec .retire s = .next (s.answered r rest 2 .noSuchRecord [])) ∧
    (∀ x, identOk id = true → s.find id = some x → x.st.code ≠ 0 →
      exec .retire s = .next (s.answered r rest 2 .wrongState [])) ∧
    (∀ x, identOk id = true → s.find id = some x → x.st.code = 0 → s.canonical = true →
      ∃ t, exec .retire s = .next t ∧
        t = { s.answered r rest 2 .done [] with custody := { s.custody with register := t.custody.register } } ∧
        t.find id = none ∧ (∀ other, other ≠ id → t.find other = s.find other) ∧ t.occupancy + 1 = s.occupancy)

/-- O13 (R1, R17, R90, R158): SHELVE is MALFORMED for a malformed identifier or a slot above 63 and NO SUCH RECORD for one that no record has. It sets
the position of a SHELVED, CONDITIONING or SUSPECT record and nothing else of it, and completes the arrival of an INBOUND one: placed, CONDITIONING with
the carried hold lowered to the ceiling or SHELVED without one, the IN entry freed, an ARRIVED queued to the sender, or QUEUE FULL with none of it. -/
def Obligations.ShelvePlacesOrCompletesArrival : Prop :=
  ∀ (s : State) (r : Request) (rest : List Request) (id : Ident) (rack slot : Byte),
    s.ready r rest → s.passes .shelve → id.length = 10 → r.payload = 3 :: (id ++ [rack, slot]) →
    (identOk id = false ∨ 63 < slot.toNat → exec .shelve s = .next (s.answered r rest 3 .malformed [])) ∧
    (identOk id = true → slot.toNat ≤ 63 → s.find id = none → exec .shelve s = .next (s.answered r rest 3 .noSuchRecord [])) ∧
    ∀ x, identOk id = true → slot.toNat ≤ 63 → s.find id = some x →
    (∀ q, x.st = .shelved q →
      exec .shelve s = .next ((s.answered r rest 3 .done []).putRecord { x with st := .shelved (some ⟨rack.toNat, slot.toNat⟩) })) ∧
    (∀ q h, x.st = .conditioning q h →
      exec .shelve s =
        .next ((s.answered r rest 3 .done []).putRecord { x with st := .conditioning (some ⟨rack.toNat, slot.toNat⟩) h })) ∧
    (∀ q h why, x.st = .suspect q h why →
      exec .shelve s =
        .next ((s.answered r rest 3 .done []).putRecord { x with st := .suspect (some ⟨rack.toNat, slot.toNat⟩) h why })) ∧
    (∀ peer carried, x.st = .inbound peer carried → 16 ≤ s.line.peerOut.length →
      exec .shelve s = .next (s.answered r rest 3 .queueFull [])) ∧
    (∀ peer carried, x.st = .inbound peer carried → s.line.peerOut.length < 16 →
      exec .shelve s = .next (((({ s.answered r rest 3 .done [] with
        line := { s.line with requests := rest,
                              answers := s.line.answers ++ [⟨r.sender, r.tag, 3, .done, []⟩],
                              peerOut := s.line.peerOut ++ [⟨peer.station, .arrived x.id peer.number⟩] } } : State).putRecord
        { x with
          stateMinute := s.minute,
          st := match carried with
            | none => .shelved (some ⟨rack.toNat, slot.toNat⟩)
            | some h => .conditioning (some ⟨rack.toNat, slot.toNat⟩) (min h s.cfg.ceiling) })).eraseEntry x.id)) ∧
    (x.st.code = 1 ∨ x.st.code = 2 ∨ x.st.code = 3 ∨ x.st.code = 4 ∨ x.st.code = 7 →
      exec .shelve s = .next (s.answered r rest 3 .wrongState []))

/-- O14 (R1, R18, 11.3): QUERY RECORD answers MALFORMED, NO SUCH RECORD, or the 44 bytes of the record, and changes nothing else: identifier, state, the
ten presence marks, position, manifest, case field, peer field, restore field, exposure, hold, suspect reason, log absent and state minute, a field not
held carrying zero. -/
def Obligations.QueryRecordAnswersWholeRecord : Prop :=
  ∀ (s : State) (r : Request) (rest : List Request) (id : Ident), s.ready r rest → s.passes .queryRecord →
    id.length = 10 → r.payload = 4 :: id →
    (identOk id = false → exec .queryRecord s = .next (s.answered r rest 4 .malformed [])) ∧
    (identOk id = true → s.find id = none → exec .queryRecord s = .next (s.answered r rest 4 .noSuchRecord [])) ∧
    (∀ (x : Record) (bytes : List Byte), identOk id = true → s.find id = some x → bytes = recordBytes x →
      exec .queryRecord s = .next (s.answered r rest 4 .done bytes) ∧
      bytes.length = 44 ∧ bytes.take 10 = id ∧ bytes[10]? = some (match x.st with
        | .shelved _ => (0 : Byte)
        | .reserved _ _ => 1
        | .loading _ _ => 2
        | .out _ => 3
        | .returning _ => 4
        | .conditioning _ _ => 5
        | .suspect _ _ _ => 6
        | .transferring _ _ => 7
        | .inbound _ _ => 8) ∧
      (∀ held : List Bool, held = [x.st.position.isSome, x.st.manifest.isSome, x.st.case.isSome, x.st.peer.isSome,
          x.st.restore.isSome, (x.st.restore.bind (·.position)).isSome, (x.st.restore.bind (·.hold)).isSome,
          x.exposure.isSome, x.st.hold.isSome, x.st.reason.isSome] →
        ∀ n, n < 16 → (ofBytes ((bytes.drop 11).take 2)).testBit n = held.getD n false) ∧
      bytes[13]? = some (BitVec.ofNat 8 ((x.st.position.map (·.rack)).getD 0)) ∧
      bytes[14]? = some (BitVec.ofNat 8 ((x.st.position.map (·.slot)).getD 0)) ∧
      bytes[15]? = some (BitVec.ofNat 8 (x.st.manifest.getD 0)) ∧
      (bytes.drop 16).take 4 = toBytes 4 ((x.st.case.map (·.caseId)).getD 0) ∧
      (bytes.drop 20).take 2 = toBytes 2 ((x.st.case.map (·.departureCount)).getD 0) ∧
      (bytes.drop 22).take 4 = toBytes 4 ((x.st.case.map (·.departureMinute)).getD 0) ∧
      bytes[26]? = some (BitVec.ofNat 8 ((x.st.peer.map (·.station)).getD 0)) ∧
      bytes[27]? = some (BitVec.ofNat 8 ((x.st.peer.map (·.number)).getD 0)) ∧
      bytes[28]? = some (if (x.st.restore.bind (·.hold)).isSome then 5 else 0) ∧
      bytes[29]? = some (BitVec.ofNat 8 (((x.st.restore.bind (·.position)).map (·.rack)).getD 0)) ∧
      bytes[30]? = some (BitVec.ofNat 8 (((x.st.restore.bind (·.position)).map (·.slot)).getD 0)) ∧
      (bytes.drop 31).take 2 = toBytes 2 ((x.st.restore.bind (·.hold)).getD 0) ∧
      (bytes.drop 33).take 3 = toBytes 3 (x.exposure.getD 0) ∧ (bytes.drop 36).take 2 = toBytes 2 (x.st.hold.getD 0) ∧
      bytes[38]? = some (match x.st.reason with
        | some .countMismatch => (1 : Byte)
        | some .custodyMismatch => 2
        | some .unregistered => 3
        | some .transitLost => 4
        | some .transferInterrupted => 5
        | _ => (0 : Byte)) ∧
      bytes[39]? = some (if x.logAbsent then 1 else 0) ∧
      (x.stateMinute < 4294967296 → ofBytes (bytes.drop 40) = x.stateMinute))

/-- O15 (R19 to R22, 11.3): RELEASE SUSPECT. It is MALFORMED for a malformed identifier, a position given with a slot above 63 or a disposition that is none
of the three (by any of the three rows, log 17), NO SUCH RECORD for an identifier that no record has, and WRONG STATE for a record that is not SUSPECT.
Of a SUSPECT record, SHELVE takes the given position, else the one held, and is MALFORMED with neither; CONDITION takes the given hold, else the
advised one, else 0, lowered to the ceiling; REMOVE deletes. That the DONE of REMOVE has no content, as 11.3 lays it out, where R22 says that it
reports the record's last state, is the model's choice (log 37), and so is that a position given is checked under every disposition (log 17). -/
def Obligations.ReleaseSuspectByDisposition : Prop :=
  (∀ (s : State) (r : Request) (rest : List Request) (id : Ident) (d presence rack slot h1 h0 : Byte) (c : Instr),
    s.ready r rest → s.passes .releaseSuspect → id.length = 10 → presence.toNat ≤ 3 →
    r.payload = 5 :: (id ++ [d, presence, rack, slot, h1, h0]) →
    (d ≠ 1 → d ≠ 2 → d ≠ 3 → c = .releaseSuspectShelve ∨ c = .releaseSuspectCondition ∨ c = .releaseSuspectRemove →
      exec c s = .next (s.answered r rest 5 .malformed [])) ∧
    (d = 1 ∧ c = .releaseSuspectShelve ∨ d = 2 ∧ c = .releaseSuspectCondition ∨ d = 3 ∧ c = .releaseSuspectRemove →
      (identOk id = false ∨ presence.toNat % 2 = 1 ∧ 63 < slot.toNat → exec c s = .next (s.answered r rest 5 .malformed [])) ∧
      (identOk id = true → (presence.toNat % 2 = 1 → slot.toNat ≤ 63) →
        (s.find id = none → exec c s = .next (s.answered r rest 5 .noSuchRecord [])) ∧
        ∀ x, s.find id = some x → x.st.code ≠ 6 → exec c s = .next (s.answered r rest 5 .wrongState [])))) ∧
  ∀ (s : State) (r : Request) (rest : List Request) (id : Ident) (presence rack slot h1 h0 : Byte) (x : Record)
    (held : Option Position) (advised : Option Nat) (why : SuspectReason),
    s.ready r rest → s.passes .releaseSuspect → identOk id = true → presence.toNat ≤ 3 →
    (presence.toNat % 2 = 1 → slot.toNat ≤ 63) → s.find id = some x → x.st = .suspect held advised why →
    (r.payload = 5 :: (id ++ [1, presence, rack, slot, h1, h0]) →
      exec .releaseSuspectShelve s =
        match if presence.toNat % 2 = 1 then some ⟨rack.toNat, slot.toNat⟩ else held with
        | none => .next (s.answered r rest 5 .malformed [])
        | some p => .next ((s.answered r rest 5 .done []).putRecord { x with st := .shelved (some p), stateMinute := s.minute })) ∧
    (r.payload = 5 :: (id ++ [2, presence, rack, slot, h1, h0]) →
      ∃ hold, hold = min s.cfg.ceiling
          (if presence.toNat / 2 = 1 then 256 * h1.toNat + h0.toNat else advised.getD 0) ∧
        exec .releaseSuspectCondition s = .next ((s.answered r rest 5 .done []).putRecord
          { x with st := if hold = 0 then .shelved held else .conditioning held hold, stateMinute := s.minute })) ∧
    (r.payload = 5 :: (id ++ [3, presence, rack, slot, h1, h0]) →
      exec .releaseSuspectRemove s = .next ((s.answered r rest 5 .done []).eraseRecord id))

/-- O16 (R27 to R29, 11.3): CHECK-OUT refused as a whole by the first check that fails; otherwise each entry judged in list order: MALFORMED, REPEATED where
an earlier entry has the identifier, NO RECORD, NOT SHELVED for a record in another state or unplaced, and else RESERVED. The members with RESERVED go
from SHELVED to RESERVED in one change with the manifest in the lowest free entry, or the answer is NOTHING RESERVED. The content of either answer is
laid out by 11.3: the manifest number, the lifetime, the count, and the code of each result. -/
def Obligations.CheckOutReservesShelvedPlacedRecords : Prop :=
  ∀ (s : State) (r : Request) (rest : List Request) (list : List Ident) (n : Byte), s.ready r rest → s.passes .checkOut →
    n.toNat = list.length → (∀ id ∈ list, id.length = 10) → r.payload = 6 :: n :: list.flatten →
    (list.length = 0 ∨ 32 < list.length → exec .checkOut s = .next (s.answered r rest 6 .malformed [])) ∧
    (1 ≤ list.length → list.length ≤ 32 →
      (2 ≤ seqCode s.fire.seq → exec .checkOut s = .next (s.answered r rest 6 .zoneAlarm [])) ∧
      (seqCode s.fire.seq < 2 → s.climate.latch = true → exec .checkOut s = .next (s.answered r rest 6 .excursion [])) ∧
      (seqCode s.fire.seq < 2 → s.climate.latch = false → (∀ m ∈ s.custody.manifests, m.isSome) →
        exec .checkOut s = .next (s.answered r rest 6 .noManifestSlot [])) ∧
      (∀ k, seqCode s.fire.seq < 2 → s.climate.latch = false → s.custody.manifests[k]? = some none →
        (∀ j, j < k → ∃ m, s.custody.manifests[j]? = some (some m)) →
        ∃ (results : List EntryResult) (members : List Ident) (codes : List Byte), results.length = list.length ∧
          (∀ j id, list[j]? = some id → results[j]? = some (
            if identOk id = false then .malformed
            else if id ∈ list.take j then .repeated
            else match s.find id with
              | none => .noRecord
              | some x => match x.st with
                | .shelved (some _) => .reserved
                | _ => .notShelved)) ∧
          members = ((list.zip results).filter fun e => e.2 == .reserved).map (·.1) ∧
          codes = results.map (fun e => match e with
            | .reserved => (0 : Byte)
            | .noRecord => 1
            | .notShelved => 2
            | .repeated => 3
            | .malformed => 4) ∧
          (members = [] →
            exec .checkOut s = .next (s.answered r rest 6 .nothingReserved (0 :: 0 :: 0 :: n :: codes))) ∧
          (members ≠ [] →
            exec .checkOut s = .next { s.answered r rest 6 .done
                (BitVec.ofNat 8 (k + 1) :: (toBytes 2 s.cfg.manifestLifetime ++ n :: codes)) with
              custody := { s.custody with
                manifests := s.custody.manifests.set k (some ⟨.waiting, members, s.cfg.manifestLifetime⟩),
                register := s.custody.register.map fun x =>
                  match x.st with
                  | .shelved (some p) =>
                    if x.id ∈ members then { x with st := .reserved p (k + 1), stateMinute := s.minute } else x
                  | _ => x } })))

/-- O17 (R33): CANCEL MANIFEST, by its table; an OPEN manifest ends as at expiry, with the cause CANCELLED. -/
def Obligations.CancelManifestEndsOpenManifest : Prop :=
  ∀ (s : State) (r : Request) (rest : List Request) (n : Byte), s.ready r rest → s.passes .cancelManifest →
    r.payload = [7, n] →
    (n.toNat < 1 ∨ 4 < n.toNat → exec .cancelManifest s = .next (s.answered r rest 7 .malformed [])) ∧
    (1 ≤ n.toNat → n.toNat ≤ 4 → s.manifest? n.toNat = none →
      exec .cancelManifest s = .next (s.answered r rest 7 .noSuchManifest [])) ∧
    (∀ m, 1 ≤ n.toNat → n.toNat ≤ 4 → s.manifest? n.toNat = some m → m.state = .inSession →
      exec .cancelManifest s = .next (s.answered r rest 7 .wrongState [])) ∧
    (∀ m, 1 ≤ n.toNat → n.toNat ≤ 4 → s.manifest? n.toNat = some m → m.state = .waiting →
      exec .cancelManifest s = .next (({ s.answered r rest 7 .done [] with custody := { s.custody with
        manifests := s.custody.manifests.set (n.toNat - 1) none,
        register := s.custody.register.map fun x =>
          match x.st with
          | .reserved p k => if k = n.toNat then { x with st := .shelved (some p), stateMinute := s.minute } else x
          | _ => x } } : State).emit (.manifestEnded n.toNat .cancelled m.members.length)))

/-- O18 (R35, R55, R56): AUTHORIZE and DENY of the session that waits: a DEPART session binds the OPEN manifest named and loads, a RETURN
session loads with none, another session number finds NO SESSION, a manifest not OPEN is NO SUCH MANIFEST, and DENY ends it DENIED. -/
def Obligations.AuthorizeAndDenyTheWaitingSession : Prop :=
  ∀ (s : State) (r : Request) (rest : List Request) (n mark : Byte), s.ready r rest →
    (s.passes .authorize → r.payload = [8, n, mark] →
      (¬(1 ≤ mark.toNat ∧ mark.toNat ≤ 4 ∨ mark.toNat = 255) → exec .authorize s = .next (s.answered r rest 8 .malformed [])) ∧
      (1 ≤ mark.toNat ∧ mark.toNat ≤ 4 ∨ mark.toNat = 255 →
        (s.dock.session = .idle ∨ n.toNat ≠ s.dock.number → exec .authorize s = .next (s.answered r rest 8 .noSession [])) ∧
        (s.dock.session ≠ .idle → s.dock.session ≠ .awaitingAuth → n.toNat = s.dock.number →
          exec .authorize s = .next (s.answered r rest 8 .wrongState [])) ∧
        (s.dock.session = .awaitingAuth → n.toNat = s.dock.number →
          (s.dock.intent = some .returning → mark.toNat = 255 → exec .authorize s = .next { s.answered r rest 8 .done [] with
            dock := { s.dock with session := .loading, faults := 0, manifest := none, verdict := .none, authTimer := none,
                                  idleTimer := some s.now } }) ∧
          (s.dock.intent = some .returning ∧ mark.toNat ≠ 255 ∨ s.dock.intent = some .departing ∧ mark.toNat = 255 →
            exec .authorize s = .next (s.answered r rest 8 .wrongState [])) ∧
          (s.dock.intent = some .departing → mark.toNat ≤ 4 →
            (∀ m, s.manifest? mark.toNat = some m → m.state = .waiting →
              exec .authorize s = .next { s.answered r rest 8 .done [] with
                custody := { s.custody with
                  manifests := s.custody.manifests.set (mark.toNat - 1) (some { m with state := .inSession }) },
                dock := { s.dock with session := .loading, faults := 0, manifest := some mark.toNat, verdict := .none,
                                      authTimer := none, idleTimer := some s.now } }) ∧
            ((∀ m, s.manifest? mark.toNat = some m → m.state = .inSession) →
              exec .authorize s = .next (s.answered r rest 8 .noSuchManifest [])))))) ∧
    (s.passes .deny → r.payload = [9, n] →
      (s.dock.session = .idle ∨ n.toNat ≠ s.dock.number → exec .deny s = .next (s.answered r rest 9 .noSession [])) ∧
      (s.dock.session ≠ .idle → s.dock.session ≠ .awaitingAuth → n.toNat = s.dock.number →
        exec .deny s = .next (s.answered r rest 9 .wrongState [])) ∧
      (s.dock.session = .awaitingAuth → n.toNat = s.dock.number →
        ∃ t, exec .deny s = .next t ∧
          (s.dock.pendingAbort = none → (s.answered r rest 9 .done []).endedUncommitted .denied s.dock.outstanding t)))

/-- O19 (R146, R147): MOVE of a SHELVED or CONDITIONING record to an available, unfull peer: the number raised, the record TRANSFERRING with
its restore field, the entry OFFERED, the OFFER queued with the hold and the exposure; otherwise MALFORMED for the identifier or the destination, ZONE
ALARM in ALARM-1 or later, NO SUCH RECORD, WRONG STATE, or by the destination, the table and the queue. A destination is unavailable where it is the
station's own address or not PRESENT, where its last beacon reports UNCONFIGURED or CONFIRMED or later, or where its confirmed bit shows. That the next
number is taken also where an older OUT entry still holds it is the model's reading of R144 and R147 (log 46). -/
def Obligations.MoveBeginsAnOffer : Prop :=
  ∀ (s : State) (r : Request) (rest : List Request) (id : Ident) (dest : Byte) (x : Record) (restore : Restore),
    s.ready r rest → s.passes .move → id.length = 10 → r.payload = 10 :: (id ++ [dest]) →
    (identOk id = false ∨ 15 < dest.toNat → exec .move s = .next (s.answered r rest 10 .malformed [])) ∧
    (identOk id = true → dest.toNat ≤ 15 → 2 ≤ seqCode s.fire.seq → exec .move s = .next (s.answered r rest 10 .zoneAlarm [])) ∧
    (identOk id = true → dest.toNat ≤ 15 → seqCode s.fire.seq < 2 → s.find id = none →
      exec .move s = .next (s.answered r rest 10 .noSuchRecord [])) ∧
    (identOk id = true → dest.toNat ≤ 15 → seqCode s.fire.seq < 2 → s.find id = some x → x.st.code ≠ 0 → x.st.code ≠ 5 →
      exec .move s = .next (s.answered r rest 10 .wrongState [])) ∧
    (identOk id = true → dest.toNat ≤ 15 → seqCode s.fire.seq < 2 → s.find id = some x →
      (∃ p, x.st = .shelved p ∧ restore = ⟨.shelved, p⟩ ∨ ∃ h, x.st = .conditioning p h ∧ restore = ⟨.conditioning h, p⟩) →
      (s.unavailable dest.toNat = true → exec .move s = .next (s.answered r rest 10 .peerUnavailable [])) ∧
      (dest.toNat = s.line.address ∨ (∃ p, s.line.peers[dest.toNat]? = some p ∧ (p.presence ≠ .present ∨
          (∃ b, p.beacon = some b ∧ (b.configured = false ∨ 3 ≤ seqCode b.fire)) ∨ p.confirmed = true)) →
        exec .move s = .next (s.answered r rest 10 .peerUnavailable [])) ∧
      (∀ (p : PeerEntry) (b : Beacon), s.line.peers[dest.toNat]? = some p → p.beacon = some b → dest.toNat ≠ s.line.address →
        p.presence = .present → b.configured = true → seqCode b.fire < 3 → p.confirmed = false →
        (b.registerCount = 1024 → exec .move s = .next (s.answered r rest 10 .peerFull [])) ∧
        (b.registerCount ≠ 1024 → 8 ≤ s.transfer.entries.length →
          exec .move s = .next (s.answered r rest 10 .transferTableFull [])) ∧
        (b.registerCount ≠ 1024 → s.transfer.entries.length < 8 → 16 ≤ s.line.peerOut.length →
          exec .move s = .next (s.answered r rest 10 .queueFull [])) ∧
        (b.registerCount ≠ 1024 → s.transfer.entries.length < 8 → s.line.peerOut.length < 16 →
          ∃ number, number = (s.transfer.number + 1) % 256 ∧
            exec .move s = .next ((({ s with
              transfer := { s.transfer with number := number },
              line := { s.line with requests := rest,
                                    answers := s.line.answers ++ [⟨r.sender, r.tag, 10, .done, [BitVec.ofNat 8 number]⟩],
                                    peerOut := s.line.peerOut ++
                                      [⟨dest.toNat, .offer x.id number restore.hold x.exposure⟩] } } : State).putRecord
              { x with st := .transferring ⟨dest.toNat, number⟩ restore, stateMinute := s.minute }).putEntry
                ⟨x.id, dest.toNat, number, .offered none⟩))))

/-- O20 (R97, R100, R102, R103, R106, R107, R110, R111, 11.3): QUERY ZONE answers 51 bytes, configured or not, and changes nothing but the free values
drawn: the configured state, the zone value, the band and the spread state, the spread of the usable probes' records as they stand (log 22), eight bytes
for each probe, each output with the seconds left of its minimum-off time, a part of a second counted as one or as none (log 10), forcing, account and
latch. That IN BAND is 1, and so each other byte of two values for which 11.3 gives no code, is the model's choice (log 45). EXCURSION CLEAR, by the
checks on configuration and key, sets the account to 0 and clears the latch, and nothing else. -/
def Obligations.QueryZoneReportsAndExcursionClears : Prop :=
  ∀ (s : State) (r : Request) (rest : List Request), s.ready r rest →
    (r.payload = [11] → s.climate.probes.length = 4 →
      ∃ report, report.length = 51 ∧ exec .queryZone s = .next { s.answered r rest 11 .done report with free := s.free + 1 } ∧
        report[0]? = some (if s.configured then 1 else 0) ∧ report[1]? = some (if s.climate.zone = none then 0 else 1) ∧
        (report.drop 2).take 4 = (match s.climate.zone with
          | none => [0, 0, 0, 0]
          | some z => toBytes 2 z.rh ++ signedBytes z.temperature) ∧
        report[6]? = some (if s.climate.inBand then 1 else 0) ∧ report[7]? = some (if s.climate.spreadHigh then 1 else 0) ∧
        (s.usable.length ≤ 1 → (report.drop 8).take 2 = [0, 0]) ∧
        (2 ≤ s.usable.length → ∃ high ∈ s.usable, ∃ low ∈ s.usable,
          (∀ y ∈ s.usable, low.2.rh ≤ y.2.rh ∧ y.2.rh ≤ high.2.rh) ∧ (report.drop 8).take 2 = toBytes 2 (high.2.rh - low.2.rh)) ∧
        (∀ k y, (k, y) ∈ s.usable ↔ 1 ≤ k ∧ k ≤ (if s.configured then s.cfg.probeCount else 4) ∧
          ∃ p, s.climate.probes[k - 1]? = some p ∧ p.state ≠ .failed ∧ p.reading = some y) ∧
        (∀ k p, 1 ≤ k → s.climate.probes[k - 1]? = some p → (report.drop (2 + 8 * k)).take 8 =
          ([if k ≤ (if s.configured then s.cfg.probeCount else 4) then 1 else 0,
            match p.state with
              | .valid => 0
              | .stale => 1
              | .failed => 2] : List Byte) ++
          (match p.reading with
            | none => [0, 0, 0, 0, 0, 0]
            | some y => toBytes 2 y.rh ++ signedBytes y.temperature ++ toBytes 2 (s.climate.roundStart - p.stamp))) ∧
        (∃ part, (part = 0 ∨ part = 999) ∧ ∀ n o, n = 42 ∧ o = s.climate.humidify ∨ n = 44 ∧ o = s.climate.dehumidify →
          report[n]? = some (if o.on then 1 else 0) ∧
          (o.on = true ∨ o.offAt = none → report[n + 1]? = some 0) ∧
          ∀ off, o.on = false → o.offAt = some off →
            report[n + 1]? = some (BitVec.ofNat 8 ((120000 - (s.now - off) + part) / 1000))) ∧
        report[46]? = some (if s.configured = false ∨ s.climate.zone = none ∨ 2 ≤ seqCode s.fire.seq ∨ s.fire.neighbourAlert = true
          then 1 else 0) ∧
        (s.climate.account ≤ 16777215 → ofBytes ((report.drop 47).take 3) = s.climate.account) ∧
        report[50]? = some (if s.climate.latch then 1 else 0)) ∧
    (r.payload = [12] →
      (s.configured = false → exec .excursionClear s = .next (s.answered r rest 12 .notConfigured [])) ∧
      (s.configured = true → s.pins.keyOn = false → exec .excursionClear s = .next (s.answered r rest 12 .notAuthorized [])) ∧
      (s.configured = true → s.pins.keyOn = true → exec .excursionClear s =
        .next { s.answered r rest 12 .done [] with climate := { s.climate with account := 0, latch := false } }))

/-- O21 (R129, R131): FIRE RESET, by the checks on configuration and key and then by its table. A reset that is taken clears the latch, stops the timers and
takes the sequence to QUIET, with the outputs of QUIET and a FIRE STATE event of cause FIRE RESET, whose list of the channels in FAULT by ascending
number is the model's choice (log 41). -/
def Obligations.FireResetByItsTable : Prop :=
  ∀ (s : State) (r : Request) (rest : List Request), s.ready r rest → r.payload = [13] →
    (s.configured = false → exec .fireReset s = .next (s.answered r rest 13 .notConfigured [])) ∧
    (s.configured = true → s.pins.keyOn = false → exec .fireReset s = .next (s.answered r rest 13 .notAuthorized [])) ∧
    (s.configured = true → s.pins.keyOn = true →
      (s.fire.seq = .quiet → exec .fireReset s = .next (s.answered r rest 13 .done [])) ∧
      (s.fire.seq = .preDischarge ∨ s.fire.seq = .discharge ∨ s.fire.seq = .soak →
        exec .fireReset s = .next (s.answered r rest 13 .sequenceRunning [])) ∧
      (s.fire.seq = .preAlert ∨ s.fire.seq = .alarm1 ∨ s.fire.seq = .confirmed ∨ s.fire.seq = .resetWait →
        (s.alertCondition = true ∨ s.alarmCondition = true ∨ s.fire.callOperated = true →
          exec .fireReset s = .next (s.answered r rest 13 .inputsActive [])) ∧
        (s.alertCondition = false → s.alarmCondition = false → s.fire.callOperated = false →
          ∃ t, exec .fireReset s = .next t ∧
            t = (s.answered r rest 13 .done []).afterSequence t ∧
            t.fire = { s.fire with
              callLatch := false, seq := .quiet, countdown := none, pulse := none, soak := none, release := false,
              sounder := if s.fire.generalSeen then .alert else .off, damperClosed := s.fire.neighbourAlert } ∧
            (s.climateHeld = true → t.climate = s.climate) ∧
            t.notices = (s.emit (.fireState .quiet s.fire.seq .fireReset [] s.faultChannels false false s.fire.holdOn
              s.fire.isolateOn s.fire.doorOpen s.fire.agentReady s.custody.zoneClock)).notices)))

/-- O22 (R113, R142, R172, R181, R188): CONFIGURE. A configured station answers ALREADY CONFIGURED and nothing changes. An unconfigured one stores the
record that O23 states, names the sender as gateway and flags the neighbours listed; the probes above the count are FAILED without a reading, and
the zone value, the band and the spread are formed again, the outputs not yet decided; the flag is judged and the sequence evaluated on the new groups;
a source switched off keeps a pending notice only while that is being sent, and every other notice stays but for the events of these changes. Without
an entry to confirmation that finds a session before its commit point or an OFFERED entry, the register, the dock and the transfers are as they
were. Which VALID events of an unfinished round are dropped is log 21, the order of the holders that NEIGHBOUR ALARM lists is log 41, that the probes
are dropped in ascending number is log 42, that the answer names item 13 for a detector-group entry of no choice also where a later entry for its
channel supersedes it is log 39, and that it names an item of a choice which took its default is log 44. -/
def Obligations.ConfigureIsAcceptedOnce : Prop :=
  ∀ (s : State) (r : Request) (rest : List Request) (config : ConfigRecord) (q : Seq), s.ready r rest →
    requestKindOf r.payload = some .configure → layoutWhole .configure (requestFields r.payload) = true →
    config = configFrom s.line.address r.sender (configEntries (requestFields r.payload)) →
    q = ({ s with request := ⟨some config, some r.sender, none⟩ } : State).evaluatedSeq →
    (s.configured = true → exec .configure s = .next (s.answered r rest 14 .alreadyConfigured [])) ∧
    (s.configured = false → ∃ t, exec .configure s = .next t ∧
      t = { s with
        request := ⟨some config, some r.sender, none⟩, custody := t.custody, dock := t.dock, climate := t.climate, fire := t.fire,
        transfer := t.transfer, notices := t.notices, free := t.free,
        line := { s.line with
          requests := rest, peers := t.line.peers, peerOut := t.line.peerOut,
          answers := s.line.answers ++ [⟨r.sender, r.tag, 14, .done,
            listBytes (namedItems s.line.address r.sender (configEntries (requestFields r.payload)))⟩] } } ∧
      t.line.peers.length = s.line.peers.length ∧
      (∀ (a : Nat) (p : PeerEntry), s.line.peers[a]? = some p →
        t.line.peers[a]? = some { p with neighbour := config.neighbours.contains a }) ∧
      (q = s.fire.seq ∨ seqCode q < 3 ∨ s.dock.session.beforeCommit = false ∧ (∀ e ∈ s.transfer.entries, e.isOffered = false) →
        t.custody = s.custody ∧ t.dock = s.dock ∧ t.transfer = s.transfer ∧ t.line.peerOut = s.line.peerOut ∧
        ∀ n l, s.notices.pending.length = 16 → config.levels[n]? = some (some l) → n ≠ 0 → n ≠ 3 → n ≠ 12 → n ≠ 13 →
          t.pendingNotice n = s.pendingNotice n) ∧
      (t.climate = { s.climate with
          probes := t.climate.probes, round := t.climate.round, zone := t.climate.zone, spreadHigh := t.climate.spreadHigh,
          inBand := t.climate.inBand, humidify := t.climate.humidify, dehumidify := t.climate.dehumidify } ∧
        (∀ k p, k < 4 → s.climate.probes[k]? = some p → t.climate.probes[k]? = some (
          if k < config.probeCount then p else { p with state := .failed, reading := none })) ∧
        t.zoneFormed ∧ t.bandFormed ∧
        (s.climateHeld = true → t.climate.humidify = s.climate.humidify ∧ t.climate.dehumidify = s.climate.dehumidify) ∧
        (∀ round, s.climate.round = some round → ∃ events, t.climate.round = some { round with events := events } ∧
          events.Sublist round.events)) ∧
      t.fire.neighbourAlert = !t.alertHolders.isEmpty ∧
      (s.fireHeld = true → t.fire = { s.fire with
        seq := q, neighbourAlert := t.fire.neighbourAlert,
        countdown := if q = s.fire.seq then s.fire.countdown
          else if q = .preDischarge then some (s.now + 1000 * config.preDischarge) else none,
        pulse := if q = s.fire.seq then s.fire.pulse else none, soak := if q = s.fire.seq then s.fire.soak else none,
        release := if q = s.fire.seq then s.fire.release else false,
        sounder := sounderFor q s.fire.generalSeen, damperClosed := damperFor q t.fire.neighbourAlert }) ∧
      (s.notices.pending.length = 16 →
        (∀ n, config.levels[n]? = some none → t.pendingNotice n = (s.pendingNotice n).filter (·.sending)) ∧
        (t.records 12 = true →
          if t.climate.inBand = s.climate.inBand then t.pendingNotice 12 = s.pendingNotice 12
          else ∃ x, t.pendingNotice 12 = some x ∧ x.content = .zoneBand t.climate.inBand t.climate.zone) ∧
        (t.records 3 = true →
          if t.fire.neighbourAlert = s.fire.neighbourAlert then t.pendingNotice 3 = s.pendingNotice 3
          else ∃ x, t.pendingNotice 3 = some x ∧
            x.content = .neighbourAlarm t.fire.neighbourAlert t.alertHolders s.custody.zoneClock) ∧
        (∀ k p y, t.records 13 = true → config.probeCount < k → k ≤ 4 → s.climate.probes[k - 1]? = some p → p.state ≠ .failed →
          p.reading = some y → (∀ j x, k < j → j ≤ 4 → s.climate.probes[j - 1]? = some x → x.state = .failed) →
          t.climate.spreadHigh = false ∨ s.climate.spreadHigh = true →
          ∃ x, t.pendingNotice 13 = some x ∧ x.content = .probe k .failed y) ∧
        (t.records 13 = true → t.climate.spreadHigh = true → s.climate.spreadHigh = false →
          ∃ x a b high low, t.pendingNotice 13 = some x ∧ x.content = .spreadHigh (high.rh - low.rh) a b ∧ (a, high) ∈ t.usable ∧
            (b, low) ∈ t.usable ∧ ∀ y ∈ t.usable, low.rh ≤ y.2.rh ∧ y.2.rh ≤ high.rh) ∧
        (if q = s.fire.seq then t.pendingNotice 0 = s.pendingNotice 0
          else ∃ x previous cause alarms faults, t.pendingNotice 0 = some x ∧ x.content = .fireState q previous cause alarms faults
            s.fire.callOperated s.fire.callLatch s.fire.holdOn s.fire.isolateOn s.fire.doorOpen s.fire.agentReady
            s.custody.zoneClock ∧ previous = s.fire.seq)))

/-- O23 (R181 to R183, R185, R190, log 18): the configuration that a CONFIGURE stores, item by item. A numeric item takes the value of its last entry, the
nearer end of its range for one outside, and its default without an entry, and is named in the answer where it was clamped; a channel's group and the
manual confirms take their defaults for no choice; the neighbour list keeps, in order, what of the first four entries is in range, none of them this
station, the sender or a repeat; a source's level is the nearer of its range, OFF where that is allowed, and its default otherwise. That the last of
several entries for one channel or source stands is log 18. -/
def Obligations.ConfiguredValuesLieInTheirRanges : Prop :=
  ∀ (own sender : Nat) (entries : List ConfigEntry) (c : ConfigRecord), c = configFrom own sender entries →
    itemTaken own sender entries 1 200 600 400 c.rhSet ∧ itemTaken own sender entries 2 10 150 50 c.rhBand ∧
    itemTaken own sender entries 3 100 300 180 c.tempSet ∧ itemTaken own sender entries 4 5 100 30 c.tempBand ∧
    itemTaken own sender entries 5 5 100 20 c.controlBand ∧ itemTaken own sender entries 6 1 4 4 c.probeCount ∧
    itemTaken own sender entries 7 0 2600 100 c.uncovered ∧ itemTaken own sender entries 8 1 65535 128 c.divisor ∧
    itemTaken own sender entries 9 0 1440 60 c.baseHold ∧ itemTaken own sender entries 10 60 10080 10080 c.ceiling ∧
    itemTaken own sender entries 11 0 16777215 500000 c.exposureLimit ∧
    itemTaken own sender entries 12 1 16777215 100000 c.excursionLimit ∧
    itemTaken own sender entries 15 10 60 30 c.preDischarge ∧ itemTaken own sender entries 16 300 3600 600 c.soakTime ∧
    itemTaken own sender entries 18 1 1440 240 c.manifestLifetime ∧ itemTaken own sender entries 19 30 300 120 c.authWait ∧
    itemTaken own sender entries 20 1 10 3 c.offerWait ∧ itemTaken own sender entries 21 1 240 30 c.transitLimit ∧
    c.groups.length = 8 ∧
    (∀ (channel : Nat) (dflt : Group), channel < 8 → (dflt = if channel ≤ 3 then .a else .b) →
      c.groups[channel]? = some (match (entries.filter fun e => e.item == 13 && e.third == channel).getLast? with
        | none => dflt
        | some e => if e.fourth = 0 then .a else if e.fourth = 1 then .b else if e.fourth = 2 then .unused else dflt)) ∧
    c.manualConfirms = (match (entries.filter fun e => e.item == 14).getLast? with
      | none => true
      | some e => decide (e.value ≠ 0)) ∧
    (∀ given : List Int, given = ((entries.filter fun e => e.item == 17).map (·.value)).take 4 →
      c.neighbours.Nodup ∧ c.neighbours.Sublist (given.map Int.toNat) ∧
      ∀ a : Nat, a ∈ c.neighbours ↔ (a : Int) ∈ given ∧ a ≤ 15 ∧ a ≠ own ∧ a ≠ sender) ∧
    c.levels.length = 16 ∧ levelTaken entries c 0 0 0 false 0 ∧ levelTaken entries c 1 0 0 false 0 ∧ levelTaken entries c 2 0 1 true 1 ∧
    levelTaken entries c 3 0 2 true 1 ∧ levelTaken entries c 4 1 3 true 2 ∧ levelTaken entries c 5 1 2 true 1 ∧
    levelTaken entries c 6 1 2 false 1 ∧ levelTaken entries c 7 1 3 true 2 ∧ levelTaken entries c 8 1 3 true 2 ∧
    levelTaken entries c 9 1 3 true 3 ∧ levelTaken entries c 10 1 3 true 2 ∧ levelTaken entries c 11 1 3 true 1 ∧
    levelTaken entries c 12 1 3 true 2 ∧ levelTaken entries c 13 1 3 true 3 ∧ levelTaken entries c 14 1 3 true 1 ∧
    levelTaken entries c 15 1 1 false 1

/-- O24 (R178, R189, 11.2, log 17): the request unit's own checks, in their order, for every row that takes requests: NOT CONFIGURED, NOT AUTHORIZED and
MALFORMED answers change nothing else; and an unknown kind is answered UNKNOWN REQUEST with its kind byte. Which row takes a RELEASE SUSPECT whose
disposition cannot be read is the model's choice (log 17). The kinds are numbered 1 to 15 in the order of R178, five of them need the key, and the
whole layout of each has the length of 11.2. -/
def Obligations.RequestUnitChecksComeFirst : Prop :=
  (∀ (s : State) (r : Request) (rest : List Request) (kind : RequestKind) (c : Instr), s.ready r rest →
    requestKindOf r.payload = some kind → takesRequest c kind (requestFields r.payload) = true →
    (s.configured = false → kind ≠ .configure → kind ≠ .queryZone →
      exec c s = .next (s.answered r rest (kindByte kind) .notConfigured [])) ∧
    (s.configured = true → kind.custodial = true → s.pins.keyOn = false →
      exec c s = .next (s.answered r rest (kindByte kind) .notAuthorized [])) ∧
    (s.passes kind → layoutWhole kind (requestFields r.payload) = false →
      exec c s = .next (s.answered r rest (kindByte kind) .malformed []))) ∧
  (∀ (s : State) (r : Request) (rest : List Request) (k : Byte) (fields : List Byte), s.ready r rest → r.payload = k :: fields →
    requestKindOf r.payload = none → exec .unknownRequest s = .next (s.answered r rest k .unknownRequest [])) ∧
  (∀ (k : Byte) (fields : List Byte), requestKindOf (k :: fields) =
    if k.toNat = 0 then none
    else [RequestKind.enrol, .retire, .shelve, .queryRecord, .releaseSuspect, .checkOut, .cancelManifest, .authorize, .deny, .move,
      .queryZone, .excursionClear, .fireReset, .configure, .reset][k.toNat - 1]?) ∧
  (∀ kind fields, requestKindOf (kindByte kind :: fields) = some kind) ∧
  (∀ kind : RequestKind, kind.custodial = true ↔
    kind = .retire ∨ kind = .releaseSuspect ∨ kind = .excursionClear ∨ kind = .fireReset ∨ kind = .reset) ∧
  ∀ fields : List Byte,
    (∀ (kind : RequestKind) (length : Nat), (kind = .enrol ∨ kind = .shelve) ∧ length = 12 ∨ (kind = .retire ∨ kind = .queryRecord) ∧ length = 10 ∨
        kind = .releaseSuspect ∧ length = 16 ∨ (kind = .cancelManifest ∨ kind = .deny) ∧ length = 1 ∨
        kind = .authorize ∧ length = 2 ∨ kind = .move ∧ length = 11 ∨
        (kind = .queryZone ∨ kind = .excursionClear ∨ kind = .fireReset ∨ kind = .reset) ∧ length = 0 →
      (layoutWhole kind fields = true ↔ fields.length = length)) ∧
    (layoutWhole .checkOut fields = true ↔ ∃ n rest, fields = n :: rest ∧ rest.length = 10 * n.toNat) ∧
    (layoutWhole .configure fields = true ↔ ∃ n rest, fields = n :: rest ∧ rest.length = 5 * n.toNat ∧
      ∀ j, j < n.toNat → ∃ item, rest[5 * j]? = some item ∧ 1 ≤ item.toNat ∧ item.toNat ≤ 22)

/-- O25 (R184): RESET is answered DONE and waits 5 s at most for its answer to be sent; while it waits no request is taken by any row. -/
def Obligations.ResetAnswersAndStopsRequests : Prop :=
  (∀ (s : State) (r : Request) (rest : List Request), s.ready r rest → s.passes .reset → r.payload = [15] →
    exec .reset s = .next { s.answered r rest 15 .done [] with
      request := { s.request with resetWait := some (s.now + 5000) } }) ∧
  ∀ (s : State) (kind : RequestKind) (c : Instr) (fields : List Byte), s.settled = true → s.request.resetWait.isSome →
    c = .unknownRequest ∨ takesRequest c kind fields = true → exec c s = .next s

/-! ### The zone line -/

/-- O26 (R163, R164, R166, R184, R187 to R189): a mark, heard or read back when the cycle timer runs out. With nothing being sent a well-formed one gives
its number, any other the own number plus one wrapping from 9 to 0; the timer restarts, the station is aligned, and the number 0 ends a superframe
(at every mark that gives it: log 19), whose judgement of the peers is left due until it is taken (log 1). At the timer's end the station sends the
mark of its own number plus one, and takes what it reads back as it takes a mark. A mark that comes while the station sends cuts that short with the
outcome UNANSWERED and is then taken, a malformed one too (log 38): a beacon is over, a transfer message is handed back, an answer leaves its queue, a
notice stays pending, but is removed where its source has gone OFF; where the answer was the DONE of a RESET the warm reset follows (log 20). -/
def Obligations.MarksSetTheCycleNumber : Prop :=
  ∀ (s : State) (mark : Byte), s.settled = true →
    (s.line.sending = none → ∃ number,
      (∀ n, n ≤ 9 → mark = BitVec.ofNat 8 ((15 - n) * 16 + n) → number = n) ∧
      ((∀ n, n ≤ 9 → mark ≠ BitVec.ofNat 8 ((15 - n) * 16 + n)) → number = (s.line.cycle + 1) % 10) ∧
      exec (.cycleMark mark) s = .next { s with line := { s.line with
        aligned := true, cycle := number, cycleStart := s.now, slotUsed := false, superframeDue := decide (number = 0) } } ∧
      exec (.cycleTimerExpiry mark) s = .next { s with line := { s.line with
        markSent := some (markByte ((s.line.cycle + 1) % 10)),
        aligned := true, cycle := number, cycleStart := s.now, slotUsed := false, superframeDue := decide (number = 0) } }) ∧
    exec (.cycleTimerExpiry mark) s =
      exec (.cycleMark mark) { s with line := { s.line with markSent := some (markByte ((s.line.cycle + 1) % 10)) } } ∧
    ∀ (bytes : List Byte) (conflict : Bool),
      (∀ b, s.line.sending = some ⟨.beacon b, bytes, conflict⟩ →
        exec (.cycleMark mark) s = .next (({ s with line := { s.line with sending := none } } : State).takeMark mark)) ∧
      (∀ m, s.line.sending = some ⟨.peer m, bytes, conflict⟩ →
        exec (.cycleMark mark) s = .next (((({ s with line := { s.line with
          sending := none, peerOut := s.line.peerOut.drop 1 } } : State).peerOutcome m .unanswered)).takeMark mark)) ∧
      (∀ n x, s.line.sending = some ⟨.notice n, bytes, conflict⟩ → s.pendingNotice n = some x → s.records n = true →
        exec (.cycleMark mark) s = .next (({ s with
          line := { s.line with sending := none },
          notices := ⟨s.notices.pending.set n (some { x with sending := false, inSlot := 0 })⟩ } : State).takeMark mark)) ∧
      (∀ n x, s.line.sending = some ⟨.notice n, bytes, conflict⟩ → s.pendingNotice n = some x → s.records n = false →
        exec (.cycleMark mark) s = .next (({ s with
          line := { s.line with sending := none }, notices := ⟨s.notices.pending.set n none⟩ } : State).takeMark mark)) ∧
      ∀ (a : Answer) (u : State), s.line.sending = some ⟨.answer a, bytes, conflict⟩ →
        u = (({ s with line := { s.line with sending := none, answers := s.line.answers.drop 1 } } : State).takeMark mark) →
        (s.request.resetWait = none ∨ a.kind ≠ 15 ∨ a.result ≠ .done → exec (.cycleMark mark) s = .next u) ∧
        (s.request.resetWait.isSome → a.kind = 15 → a.result = .done →
          exec (.cycleMark mark) s = .next (u.warmReset .resetRequest))

/-- O27: the state after reset, with the values the spec gives it, meets every invariant of O59 and O60. -/
def Obligations.ResetMeetsTheInvariants : Prop :=
  State.reset.custodyHeld = true ∧ State.reset.climateHeld = true ∧ State.reset.fireHeld = true ∧
    State.reset.queuesBounded = true ∧ State.reset.countersHeld = true ∧ State.reset.occupancy ≤ 1024 ∧
    State.reset.settled = true ∧ State.reset.coldStarted = State.reset

/-- O28 (R172): a superframe end raises the count of every peer not heard, holding at 3 and passing over the own entry, marks every entry not
heard, and changes nothing else. -/
def Obligations.SuperframeEndCountsMissedBeacons : Prop :=
  ∀ s : State, s.line.superframeDue = true →
    ∃ peers, exec .superframeEnd s = .next { s with line := { s.line with superframeDue := false, peers := peers } } ∧
      peers.length = s.line.peers.length ∧
      ∀ (a : Nat) (p : PeerEntry), s.line.peers[a]? = some p → peers[a]? = some { p with
        heard := false, missed := if a = s.line.address ∨ p.heard = true then p.missed else min (p.missed + 1) 3 }

/-- O29 (R107, R133, R134, R136, R137, R172): a peer whose count has reached 3 becomes ABSENT; one that was PRESENT emits PEER PRESENCE, one that was UNKNOWN emits
nothing for it; the neighbour-alert flag then stands as the table gives it. A change of it sets the sounder and the damper by their tables, turns OFF an
output that is ON where anything forces and leaves it otherwise, and emits NEIGHBOUR ALARM; without one these stand as they were. That the event lists
the holders by ascending address is the model's choice (log 41). -/
def Obligations.PeerGoneBecomesAbsent : Prop :=
  ∀ (s : State) (a : Fin 16) (p : PeerEntry), s.line.peers[a.val]? = some p → 3 ≤ p.missed → p.presence ≠ .absent →
    a.val ≠ s.line.address →
    ∃ t u, exec (.peerAbsent a) s = .next t ∧
      u = (if p.presence = .present then s.emit (.peerPresence a.val .absent none) else s) ∧
      t = ({ s with line := { s.line with peers := s.line.peers.set a.val { p with presence := .absent } } } : State).afterFlag t ∧
      t.fire.neighbourAlert = !t.alertHolders.isEmpty ∧
      (t.fire.neighbourAlert = s.fire.neighbourAlert →
        t.fire = s.fire ∧ t.climate = s.climate ∧ t.notices = u.notices) ∧
      (t.fire.neighbourAlert ≠ s.fire.neighbourAlert →
        t.notices = (u.emit (.neighbourAlarm t.fire.neighbourAlert t.alertHolders s.custody.zoneClock)).notices ∧
        t.fire = { s.fire with
          neighbourAlert := t.fire.neighbourAlert, sounder := sounderFor s.fire.seq s.fire.generalSeen,
          damperClosed := damperFor s.fire.seq t.fire.neighbourAlert } ∧
        t.climate = s.climateForcedIn t)

/-- O30 (R107, R133 to R137, R165): an alarm field of an aligned station. It drives its own bits, records every other station's pair and the general
alarm as read back, its own driving included, judges the flag, and keeps its own pair as it was; sounder and damper stand by their tables. A change of the
flag emits NEIGHBOUR ALARM and turns OFF an output that is ON where anything forces; without one, or with nothing forcing, the outputs stay, and without
one the notices too. An unaligned station does none of it. The order of the holders listed is the model's choice (log 41). -/
def Obligations.AlarmFieldIsDrivenAndRecorded : Prop :=
  ∀ (s : State) (others : BitVec 33), s.settled = true →
    (s.line.aligned = false → exec (.alarmField others) s = .next s) ∧
    (s.line.aligned = true → ∃ t, exec (.alarmField others) s = .next t ∧
      t = ({ s with
        line := { s.line with peers := t.line.peers, alarmDriven := t.line.alarmDriven },
        fire := { s.fire with generalSeen := t.fire.generalSeen } } : State).afterFlag t ∧
      (∀ n, n < 33 → s.line.address < 16 → t.line.alarmDriven.getLsbD n =
        decide (n = 2 * s.line.address ∧ 2 ≤ seqCode s.fire.seq ∨
          (n = 2 * s.line.address + 1 ∨ n = 32) ∧ 3 ≤ seqCode s.fire.seq ∧ seqCode s.fire.seq ≤ 6)) ∧
      (∀ a p, s.line.peers[a]? = some p → t.line.peers[a]? = some (if a = s.line.address then p else
        { p with alarm := (others ||| t.line.alarmDriven).getLsbD (2 * a),
                 confirmed := (others ||| t.line.alarmDriven).getLsbD (2 * a + 1) })) ∧
      t.fire.generalSeen = (others ||| t.line.alarmDriven).getLsbD 32 ∧
      t.fire.neighbourAlert = !t.alertHolders.isEmpty ∧ t.fire.seq = s.fire.seq ∧
      t.fire.sounder = sounderFor t.fire.seq t.fire.generalSeen ∧
      t.fire.damperClosed = damperFor t.fire.seq t.fire.neighbourAlert ∧
      (t.fire.neighbourAlert = s.fire.neighbourAlert → t.climate = s.climate ∧ t.notices = s.notices) ∧
      (t.fire.neighbourAlert ≠ s.fire.neighbourAlert →
        t.notices = (s.emit (.neighbourAlarm t.fire.neighbourAlert t.alertHolders s.custody.zoneClock)).notices ∧
        t.climate = s.climateForcedIn t))

/-- O31 (R107, R133, R134, R136, R137, R167, R172, R189): a well-formed beacon heard by an aligned station in another's slot is stored, whatever its
destination: PRESENT, count 0, heard; on entry to PRESENT it emits PEER PRESENCE and the flag is judged. A change of it sets the sounder and the
damper by their tables, turns OFF an output that is ON where anything forces, and emits NEIGHBOUR ALARM (the order of its list is log 41); without one
these stand as they were. A malformed beacon changes nothing but that nothing is driven. That the flag is judged with the beacon after a warm reset
too, where R140 has it set at the first cycle after it, is the model's choice (log 47). -/
def Obligations.BeaconMakesPeerPresent : Prop :=
  ∀ (s : State) (slot : Fin 16) (f : SlotFrame) (p : PeerEntry), s.settled = true → s.line.aligned = true →
    slot.val ≠ s.line.address → s.line.peers[slot.val]? = some p →
    (frameOk 1 f = false →
      exec (.beaconReceived slot f) s = .next { s with line := { s.line with acceptance := .neither } }) ∧
    (∀ b u, frameOk 1 f = true → beaconOf f.payload = some b →
      u = s.emit (.peerPresence slot.val .present (some (b.configured, b.fire))) →
      ∃ t, exec (.beaconReceived slot f) s = .next t ∧
        t = ({ s with line := { s.line with
          acceptance := .neither,
          peers := s.line.peers.set slot.val
            { p with presence := .present, missed := 0, heard := true, beacon := some b } } } : State).afterFlag t ∧
        (p.presence = .present → t.fire = s.fire ∧ t.climate = s.climate ∧ t.notices = s.notices) ∧
        (p.presence ≠ .present → t.fire.neighbourAlert = !t.alertHolders.isEmpty ∧
          (t.fire.neighbourAlert = s.fire.neighbourAlert → t.fire = s.fire ∧ t.climate = s.climate ∧ t.notices = u.notices) ∧
          (t.fire.neighbourAlert ≠ s.fire.neighbourAlert →
            t.notices = (u.emit (.neighbourAlarm t.fire.neighbourAlert t.alertHolders s.custody.zoneClock)).notices ∧
            t.fire = { s.fire with
              neighbourAlert := t.fire.neighbourAlert, sounder := sounderFor s.fire.seq s.fire.generalSeen,
              damperClosed := damperFor s.fire.seq t.fire.neighbourAlert } ∧
            t.climate = s.climateForcedIn t)))

/-- O32 (R164, R167, R168, R174): the acceptance of a well-formed message addressed to an aligned station and heard in another's slot, by kind: a REQUEST from
an admitted sender with room, and a transfer message at a configured station with room, are queued and ACCEPTED, otherwise REFUSED; an ANSWER or a
NOTICE is ignored with nothing driven; a kind not in the list is REFUSED. A message not addressed to it, or not well formed, changes nothing and drives
nothing. A message is addressed to it by its own address, by ALL, and by NEIGHBOURS from one of its neighbours. A message of any kind that is heard
while unaligned changes nothing, and one in the own slot is never judged: it shows as an ADDRESS CONFLICT where it is well formed and the slot unused. -/
def Obligations.MessagesAreAcceptedByKind : Prop :=
  (∀ (s : State) (slot : Fin 16) (f : SlotFrame), s.settled = true → s.line.aligned = true → slot.val ≠ s.line.address →
    (s.addressed slot.val f.dest.toNat = true →
      (frameOk 2 f = true →
        (s.configured = false ∨ s.request.gateway = some slot.val → s.line.requests.length < 8 →
          exec (.requestReceived slot f) s = .next { s with line := { s.line with
            requests := s.line.requests ++ [⟨slot.val, f.tag, f.payload⟩], acceptance := .accept } }) ∧
        (¬(s.configured = false ∨ s.request.gateway = some slot.val) ∨ 8 ≤ s.line.requests.length →
          exec (.requestReceived slot f) s = .next { s with line := { s.line with acceptance := .refuse } })) ∧
      (∀ k, frameOk (peerKindByte k) f = true →
        (s.configured = true → s.line.peerIn.length < 8 →
          exec (.peerMessageReceived slot k f) s = .next { s with line := { s.line with
            peerIn := s.line.peerIn ++ [⟨k, slot.val, f.dest.toNat, f.payload⟩], acceptance := .accept } }) ∧
        (s.configured = false ∨ 8 ≤ s.line.peerIn.length →
          exec (.peerMessageReceived slot k f) s = .next { s with line := { s.line with acceptance := .refuse } })) ∧
      (∀ k : Byte, k.toNat = 0 ∨ 9 < k.toNat → frameOk k f = true →
        exec (.unknownKindMessage slot k f) s = .next { s with line := { s.line with acceptance := .refuse } })) ∧
    (∀ k, exec (.ignoredMessage slot k f) s = .next { s with line := { s.line with acceptance := .neither } }) ∧
    (s.addressed slot.val f.dest.toNat = false →
      exec (.requestReceived slot f) s = .next { s with line := { s.line with acceptance := .neither } } ∧
      (∀ k, exec (.peerMessageReceived slot k f) s = .next { s with line := { s.line with acceptance := .neither } }) ∧
      ∀ k : Byte, k.toNat = 0 ∨ 9 < k.toNat →
        exec (.unknownKindMessage slot k f) s = .next { s with line := { s.line with acceptance := .neither } })) ∧
  (∀ (s : State) (slot dest : Nat), s.addressed slot dest = true ↔
    dest = s.line.address ∨ dest = 17 ∨ dest = 16 ∧ ∃ p, s.line.peers[slot]? = some p ∧ p.neighbour = true) ∧
  ∀ (s : State) (slot : Fin 16) (f : SlotFrame) (c : Instr) (kind : Byte), s.settled = true →
    (c = .beaconReceived slot f ∧ kind = 1 ∨ c = .requestReceived slot f ∧ kind = 2 ∨
      (∃ k, c = .peerMessageReceived slot k f ∧ kind = peerKindByte k) ∨
      (∃ k, c = .ignoredMessage slot k f ∧ kind = ignoredKindByte k) ∨ c = .unknownKindMessage slot kind f) →
    (s.line.aligned = false → exec c s = .next s) ∧
    (s.line.aligned = true → slot.val ≠ s.line.address → frameOk kind f = false →
      exec c s = .next { s with line := { s.line with acceptance := .neither } }) ∧
    (s.line.aligned = true → slot.val = s.line.address →
      (s.line.slotUsed = false → frameOk kind f = true →
        exec c s = .next (s.emit (.addressConflict s.line.address s.line.cycle (some kind)))) ∧
      (s.line.slotUsed = true ∨ frameOk kind f = false → exec c s = .next s))

/-- O33 (R174): a well-formed message heard in the own slot of an aligned cycle in which nothing was sent emits ADDRESS CONFLICT with the kind heard. A
read-back that differs is noted, and emits ADDRESS CONFLICT without a kind once the slot has ended: one cut short by a mark, which O26 states, emits
none. That a read-back with nothing being sent changes nothing is the model's choice (log 2). -/
def Obligations.SecondStationShowsAsConflict : Prop :=
  ∀ s : State, s.settled = true →
    (∀ kind f, s.line.aligned = true → s.line.slotUsed = false → frameOk kind f = true →
      exec (.addressConflict (.heard kind f)) s =
        .next (s.emit (.addressConflict s.line.address s.line.cycle (some kind)))) ∧
    (∀ kind f, s.line.aligned = false ∨ s.line.slotUsed = true ∨ frameOk kind f = false →
      exec (.addressConflict (.heard kind f)) s = .next s) ∧
    (∀ item bytes conflict, s.line.sending = some ⟨item, bytes, conflict⟩ →
      exec (.addressConflict .readBack) s = .next { s with line := { s.line with sending := some ⟨item, bytes, true⟩ } }) ∧
    (s.line.sending = none → exec (.addressConflict .readBack) s = .next s) ∧
    (∀ item bytes same accept refuse, s.line.sending = some ⟨item, bytes, true⟩ → s.request.resetWait = none →
      exec (.slotEnd same accept refuse) s = .next
        ((({ s with line := { s.line with sending := none } } : State).emit
          (.addressConflict s.line.address s.line.cycle none)).finishItem item .unanswered))

/-- O34 (R164, R170, R171): what the own slot of an aligned station carries. In cycle 0 the beacon of the state as it stands; in any other cycle a level-0
notice, else the head of the peer output queue, else the head of the answer queue; with none of them and no other notice it stays silent. A station
that is not aligned sends nothing (R164), and nothing starts while something is being sent (log 2). -/
def Obligations.ArbiterFillsTheOwnSlot : Prop :=
  (∀ s : State, s.settled = true → s.line.aligned = false ∨ s.line.sending ≠ none → exec .slotStart s = .next s) ∧
  ∀ s : State, s.settled = true → s.line.aligned = true → s.line.sending = none →
    (s.line.cycle = 0 → exec .slotStart s = .next { s with line := { s.line with
      slotUsed := true,
      sending := some ⟨.beacon ⟨s.configured, s.fire.seq, s.climate.inBand, s.occupancy, decide (s.dock.session ≠ .idle),
        s.climate.latch⟩, s.itemBytes (.beacon s.beaconContent), false⟩ } }) ∧
    (s.line.cycle ≠ 0 →
      (∀ n x, s.pendingNotice n = some x → s.level n = some 0 →
        (∀ k y, k < n → s.pendingNotice k = some y → s.level k ≠ some 0) →
        exec .slotStart s = .next { s with
          notices := ⟨s.notices.pending.set n (some { x with sending := true, inSlot := 0 })⟩,
          line := { s.line with slotUsed := true, sending := some ⟨.notice n, s.itemBytes (.notice n), false⟩ } }) ∧
      ((∀ k y, s.pendingNotice k = some y → s.level k ≠ some 0) →
        (∀ m rest, s.line.peerOut = m :: rest → exec .slotStart s = .next { s with
          free := s.free + 1,
          line := { s.line with slotUsed := true, sending := some ⟨.peer m, s.itemBytes (.peer m), false⟩ } }) ∧
        (∀ a rest, s.line.peerOut = [] → s.line.answers = a :: rest → exec .slotStart s = .next { s with
          line := { s.line with slotUsed := true, sending := some ⟨.answer a, s.itemBytes (.answer a), false⟩ } }) ∧
        (∀ n x l, s.line.peerOut = [] → s.line.answers = [] → s.pendingNotice n = some x → s.level n = some l → l ≤ 3 →
          (∀ k y j, s.pendingNotice k = some y → s.level k = some j → l < j ∨ l = j ∧ n ≤ k) →
          exec .slotStart s = .next { s with
            notices := ⟨s.notices.pending.set n (some { x with sending := true, inSlot := 0 })⟩,
            line := { s.line with slotUsed := true, sending := some ⟨.notice n, s.itemBytes (.notice n), false⟩ } }) ∧
        (s.line.peerOut = [] → s.line.answers = [] → (∀ n, s.pendingNotice n = none) → exec .slotStart s = .next s)))

/-- O35 (R166, R170, R174, R180, R184, R187, R188): the end of the own slot. The outcome is ACCEPTED by the accept bit, else REFUSED by the refuse bit,
else UNANSWERED; an answer leaves its queue whatever the outcome; a notice is removed when accepted with no event since, and stays otherwise, an
acceptance taking the reported events out of its count; one whose source went OFF while it was being sent is removed whatever the outcome; a beacon is
over. Where what was sent reads back differently, then or as noted before, the outcome is UNANSWERED, and ADDRESS CONFLICT is emitted. The DONE of a
RESET that waits is followed by the warm reset in either case. With nothing being sent the end of the slot changes nothing (log 2). -/
def Obligations.SlotEndHandsTheOutcomeBack : Prop :=
  ∀ (s : State) (bytes : List Byte) (accept refuse : Bool), s.settled = true →
    (s.line.sending = none → ∀ same, exec (.slotEnd same accept refuse) s = .next s) ∧
    (∀ b, s.line.sending = some ⟨.beacon b, bytes, false⟩ →
      exec (.slotEnd true accept refuse) s = .next { s with line := { s.line with sending := none } }) ∧
    (∀ a, s.line.sending = some ⟨.answer a, bytes, false⟩ → a.kind ≠ 15 ∨ a.result ≠ .done ∨ s.request.resetWait = none →
      exec (.slotEnd true accept refuse) s = .next { s with line := { s.line with
        sending := none, answers := s.line.answers.drop 1 } }) ∧
    (∀ m, s.line.sending = some ⟨.peer m, bytes, false⟩ →
      exec (.slotEnd true accept refuse) s = .next (({ s with line := { s.line with
        sending := none, peerOut := s.line.peerOut.drop 1 } } : State).peerOutcome m
          (if accept then .accepted else if refuse then .refused else .unanswered))) ∧
    (∀ n x, s.line.sending = some ⟨.notice n, bytes, false⟩ → s.pendingNotice n = some x → s.records n = true →
      exec (.slotEnd true accept refuse) s = .next { s with
        line := { s.line with sending := none },
        notices := ⟨s.notices.pending.set n
          (if accept then
            (if x.inSlot = 0 then none else some { x with repeats := x.inSlot - 1, sending := false, inSlot := 0 })
          else some { x with sending := false, inSlot := 0 })⟩ }) ∧
    (∀ n x, s.line.sending = some ⟨.notice n, bytes, false⟩ → s.pendingNotice n = some x → s.records n = false →
      exec (.slotEnd true accept refuse) s = .next { s with
        line := { s.line with sending := none }, notices := ⟨s.notices.pending.set n none⟩ }) ∧
    (∀ a, s.line.sending = some ⟨.answer a, bytes, false⟩ → a.kind = 15 → a.result = .done → s.request.resetWait.isSome →
      exec (.slotEnd true accept refuse) s = .next (({ s with line := { s.line with
        sending := none, answers := s.line.answers.drop 1 } } : State).warmReset .resetRequest)) ∧
    ∀ item same conflict, s.line.sending = some ⟨item, bytes, conflict⟩ → same = false ∨ conflict = true →
      ((∀ a, item = .answer a → a.kind ≠ 15 ∨ a.result ≠ .done ∨ s.request.resetWait = none) →
        exec (.slotEnd same accept refuse) s = .next
          ((({ s with line := { s.line with sending := none } } : State).emit
            (.addressConflict s.line.address s.line.cycle none)).finishItem item .unanswered)) ∧
      ∀ a, item = .answer a → a.kind = 15 → a.result = .done → s.request.resetWait.isSome →
        exec (.slotEnd same accept refuse) s = .next ((({ s with line := { s.line with
          sending := none, answers := s.line.answers.drop 1 } } : State).emit
            (.addressConflict s.line.address s.line.cycle none)).warmReset .resetRequest)

/-- O36 (R185, R186): recording an event. On a source that records, a first event makes a pending notice with repeat count 0, a later one replaces
content and time and raises the count, holding at 255, and the in-slot count of one being sent, holding at 256; no other source is touched. -/
def Obligations.EventsCoalesceOnTheirSource : Prop :=
  ∀ (s : State) (e : Event), s.notices.pending.length = 16 →
    (s.records e.source = false → s.emit e = s) ∧
    (s.records e.source = true →
      (∀ n, n ≠ e.source → (s.emit e).pendingNotice n = s.pendingNotice n) ∧
      (s.pendingNotice e.source = none →
        (s.emit e).pendingNotice e.source = some ⟨e, 0, s.custody.zoneClock, false, 0⟩) ∧
      (∀ x, s.pendingNotice e.source = some x → (s.emit e).pendingNotice e.source = some
        { x with content := e, time := s.custody.zoneClock, repeats := min (x.repeats + 1) 255,
                 inSlot := if x.sending then min (x.inSlot + 1) 256 else x.inSlot }))

/-! ### Transfers -/

/-- O37 (R145, R156, R157): a transfer message of each of the five kinds waits while the peer output queue is full, and is discarded when taken if it is
addressed to NEIGHBOURS or ALL, if its layout is not whole, or, but for an OFFER, if its identifier is malformed. A whole OFFER is judged in order: a
malformed identifier or an unknown presence bit, ALARM-1 or later, a known identifier, a full register and a full table are declined with that reason;
otherwise an INBOUND record and an IN entry are made and a TAKE is queued. -/
def Obligations.OfferIsDeclinedOrBegun : Prop :=
  (∀ (s : State) (m : PeerIn) (rest : List PeerIn) (c : Instr), s.settled = true → s.line.peerIn = m :: rest →
    (c = .offer ∧ m.kind = .offer ∨ c = .take ∧ m.kind = .take ∨ c = .decline ∧ m.kind = .decline ∨
      c = .withdraw ∧ m.kind = .withdraw ∨ c = .arrived ∧ m.kind = .arrived) →
    (16 ≤ s.line.peerOut.length → exec c s = .next s) ∧
    (s.line.peerOut.length < 16 →
      16 ≤ m.dest ∨ m.payload.length ≠ (match m.kind with | .offer => 17 | .decline => 12 | _ => 11) ∨
        m.kind ≠ .offer ∧ identOk (m.payload.take 10) = false →
      exec c s = .next (s.peerTaken rest))) ∧
  ∀ (s : State) (m : PeerIn) (rest : List PeerIn) (id : Ident) (n presence h1 h0 e2 e1 e0 : Byte), s.peerReady m rest →
    m.kind = .offer → m.dest ≤ 15 → id.length = 10 → m.payload = id ++ [n, presence, h1, h0, e2, e1, e0] →
    (∀ reason, (reason = .malformed ∧ (identOk id = false ∨ 3 < presence.toNat) ∨
        identOk id = true ∧ presence.toNat ≤ 3 ∧
          (reason = .zoneAlarm ∧ 2 ≤ seqCode s.fire.seq ∨
            seqCode s.fire.seq < 2 ∧
              (reason = .duplicate ∧ s.known id = true ∨
                s.known id = false ∧
                  (reason = .registerFull ∧ 1024 ≤ s.occupancy ∨
                    s.occupancy < 1024 ∧ reason = .tableFull ∧ 8 ≤ s.transfer.entries.length)))) →
      exec .offer s = .next { s with line := { s.line with
        peerIn := rest, peerOut := s.line.peerOut ++ [⟨m.sender, .decline id n.toNat reason⟩] } }) ∧
    (identOk id = true → presence.toNat ≤ 3 → seqCode s.fire.seq < 2 → s.known id = false → s.occupancy < 1024 →
      s.transfer.entries.length < 8 →
      exec .offer s = .next ((({ s with line := { s.line with
          peerIn := rest, peerOut := s.line.peerOut ++ [⟨m.sender, .take id n.toNat⟩] } } : State).putRecord
        ⟨id, .inbound ⟨m.sender, n.toNat⟩
            (if presence.toNat % 2 = 1 ∧ 256 * h1.toNat + h0.toNat ≠ 0 then some (256 * h1.toNat + h0.toNat) else none),
          if presence.toNat / 2 = 1 then some (65536 * e2.toNat + 256 * e1.toNat + e0.toNat) else none, false, s.minute⟩).putEntry
        ⟨id, m.sender, n.toNat, .awaitingArrival s.cfg.transitLimit⟩))

/-- O38 (R144, R149, R153): a TAKE that matches an OFFERED entry moves it to TAKEN with the transit limit; one that matches a TAKEN entry is discarded; one
that matches no OUT entry is answered with a WITHDRAW of its own number. What of R145 discards a message before that is O37. -/
def Obligations.TakeMovesOfferOrIsLate : Prop :=
  ∀ (s : State) (m : PeerIn) (rest : List PeerIn) (id : Ident) (n : Byte), s.peerReady m rest →
    m.kind = .take → m.dest ≤ 15 → identOk id = true → m.payload = id ++ [n] →
    (∀ wait, s.entry id = some ⟨id, m.sender, n.toNat, .offered wait⟩ →
      exec .take s = .next ((s.peerTaken rest).putEntry ⟨id, m.sender, n.toNat, .taken s.cfg.transitLimit⟩)) ∧
    (∀ limit, s.entry id = some ⟨id, m.sender, n.toNat, .taken limit⟩ → exec .take s = .next (s.peerTaken rest)) ∧
    ((∀ e, s.entry id = some e → e.peer ≠ m.sender ∨ e.number ≠ n.toNat ∨ e.direction = .in_) →
      exec .take s = .next { s with line := { s.line with
        peerIn := rest, peerOut := s.line.peerOut ++ [⟨m.sender, .withdraw id n.toNat⟩] } })

/-- O39 (R7, R90, R144, R150, R153): an OFFERED transfer ended by a DECLINE or by its offer wait keeps the cartridge: the record back in its prior state
with its prior position and hold, lowered to the ceiling, the entry freed, the outcome reported; a DECLINE that is late, for an identifier with no
entry, or with one from another sender, under another number or not OFFERED, changes nothing. That a reason byte which is none of the list is taken and
reported as it stands is log 29. What of R145 discards a message before that is O37. -/
def Obligations.EndedOfferKeepsTheCartridge : Prop :=
  (∀ (s : State) (x : Record) (e : TransferEntry) (peer : PeerField) (restore : Restore) (wait : Option Nat) (back : RecState),
    s.settled = true → s.entry e.id = some e → e.state = .offered wait → s.find e.id = some x →
    x.st = .transferring peer restore →
    back = (match restore.state with
      | .shelved => .shelved restore.position
      | .conditioning h => .conditioning restore.position (min h s.cfg.ceiling)) →
    (wait.isSome → exec (.offerWaitExpiry e.id) s = .next
      (((s.putRecord { x with st := back, stateMinute := s.minute }).eraseEntry e.id).emit
        (.transferOutcome e.id .out e.peer e.number .noAnswer none s.minute))) ∧
    (∀ m rest reason, s.peerReady m rest → m.kind = .decline → m.dest ≤ 15 → identOk e.id = true →
      m.payload = e.id ++ [BitVec.ofNat 8 e.number, reason] → e.number < 256 →
      (m.sender = e.peer → exec .decline s = .next
        ((((s.peerTaken rest).putRecord { x with st := back, stateMinute := s.minute }).eraseEntry e.id).emit
          (.transferOutcome e.id .out e.peer e.number .declined (some reason) s.minute))) ∧
      (m.sender ≠ e.peer → exec .decline s = .next (s.peerTaken rest)))) ∧
  ∀ (s : State) (m : PeerIn) (rest : List PeerIn) (id : Ident) (n reason : Byte), s.peerReady m rest → m.kind = .decline →
    m.dest ≤ 15 → identOk id = true → m.payload = id ++ [n, reason] →
    (∀ e, s.entry id = some e → e.peer ≠ m.sender ∨ e.number ≠ n.toNat ∨ ∀ wait, e.state ≠ .offered wait) →
      exec .decline s = .next (s.peerTaken rest)

/-- O40 (R144, R151, R153, R154, R159): an ARRIVED that matches a TAKEN entry, a WITHDRAW that matches an IN entry, and an IN entry whose transit limit
has reached 0 delete the record and free the entry with their outcome. An ARRIVED or a WITHDRAW is late where the identifier has no entry, or one of
another peer, number or state: the WITHDRAW is discarded, and the ARRIVED deletes a SUSPECT TRANSIT LOST record, and is discarded otherwise. What of
R145 discards a message before that is O37. -/
def Obligations.EndedTransferDeletesTheRecord : Prop :=
  (∀ (s : State) (m : PeerIn) (rest : List PeerIn) (id : Ident) (n : Byte), s.peerReady m rest → m.dest ≤ 15 →
    identOk id = true → m.payload = id ++ [n] →
    (∀ limit, m.kind = .arrived → s.entry id = some ⟨id, m.sender, n.toNat, .taken limit⟩ →
      exec .arrived s = .next ((((s.peerTaken rest).eraseRecord id).eraseEntry id).emit
        (.transferOutcome id .out m.sender n.toNat .delivered none s.minute))) ∧
    (∀ limit, m.kind = .withdraw → s.entry id = some ⟨id, m.sender, n.toNat, .awaitingArrival limit⟩ →
      exec .withdraw s = .next ((((s.peerTaken rest).eraseRecord id).eraseEntry id).emit
        (.transferOutcome id .in_ m.sender n.toNat .cancelledBySender none s.minute))) ∧
    (m.kind = .withdraw →
      (∀ e, s.entry id = some e → e.peer ≠ m.sender ∨ e.number ≠ n.toNat ∨ ∀ limit, e.state ≠ .awaitingArrival limit) →
        exec .withdraw s = .next (s.peerTaken rest)) ∧
    (m.kind = .arrived →
      (∀ e, s.entry id = some e → e.peer ≠ m.sender ∨ e.number ≠ n.toNat ∨ ∀ limit, e.state ≠ .taken limit) →
      (∀ x held advised, s.find id = some x → x.st = .suspect held advised .transitLost →
        exec .arrived s = .next (((s.peerTaken rest).eraseRecord id).emit
          (.transferOutcome id .out m.sender n.toNat .resolvedLate none s.minute))) ∧
      ((∀ x held advised, s.find id = some x → x.st ≠ .suspect held advised .transitLost) →
        exec .arrived s = .next (s.peerTaken rest)))) ∧
  ∀ (s : State) (e : TransferEntry), s.entry e.id = some e → e.state = .awaitingArrival 0 →
    exec (.inboundTransitExpiry e.id) s = .next (((s.eraseRecord e.id).eraseEntry e.id).emit
      (.transferOutcome e.id .in_ e.peer e.number .abandoned none s.minute))

/-- O41 (R9, R152): a TAKEN entry whose transit limit has reached 0: the record SUSPECT TRANSIT LOST, unplaced, its prior hold advised, the entry freed, then
SUSPECT ENTRY and TRANSIT OVERDUE. -/
def Obligations.OverdueTransferIsSuspect : Prop :=
  ∀ (s : State) (e : TransferEntry) (x : Record) (peer : PeerField) (restore : Restore), s.entry e.id = some e →
    e.state = .taken 0 → s.find e.id = some x → x.st = .transferring peer restore →
    exec (.transitLimitExpiry e.id) s = .next
      ((((s.putRecord { x with st := .suspect none restore.hold .transitLost, stateMinute := s.minute }).eraseEntry e.id).emit
        (.suspectEntry e.id .transitLost restore.hold)).emit (.transitOverdue e.id e.peer e.number s.minute))

/-- O42 (R7, R90, R148, R150, R157, R158): the outcome of an OFFER whose wait has not started: ACCEPTED starts the wait, REFUSED ends it DECLINED with
BUSY, UNANSWERED ends it NO ANSWER, each with the record back in its prior state, its hold lowered to the ceiling, the entry freed and the event; an
entry without its TRANSFERRING record, which no run reaches, is freed alike (log 24). An OFFER whose entry is gone or stands under another number has
its outcome discarded, and so has one whose entry is TAKEN or has its wait running, which is the model's choice (log 48). A TAKE
that is REFUSED or UNANSWERED deletes the record that still awaits its arrival, TAKE NOT DELIVERED; an ARRIVED that is REFUSED or UNANSWERED reports
ARRIVAL NOT DELIVERED; their acceptance, and any outcome of a DECLINE or a WITHDRAW, changes nothing. -/
def Obligations.OfferOutcomeStartsOrEndsTheOffer : Prop :=
  (∀ (s : State) (e : TransferEntry) (hold exposure : Option Nat), s.entry e.id = some e → e.state = .offered none →
    s.peerOutcome ⟨e.peer, .offer e.id e.number hold exposure⟩ .accepted =
        s.putEntry { e with state := .offered (some (s.now + 1000 * s.cfg.offerWait)) } ∧
      (∀ kept : State,
        ((∃ x peer restore, s.find e.id = some x ∧ x.st = .transferring peer restore ∧ kept = s.putRecord { x with
            stateMinute := s.minute,
            st := match restore.state with
              | .shelved => .shelved restore.position
              | .conditioning h => .conditioning restore.position (min h s.cfg.ceiling) }) ∨
          (∀ x, s.find e.id = some x → x.st.code ≠ 7) ∧ kept = s) →
        s.peerOutcome ⟨e.peer, .offer e.id e.number hold exposure⟩ .refused = (kept.eraseEntry e.id).emit
            (.transferOutcome e.id .out e.peer e.number .declined (some 5) s.minute) ∧
          s.peerOutcome ⟨e.peer, .offer e.id e.number hold exposure⟩ .unanswered = (kept.eraseEntry e.id).emit
            (.transferOutcome e.id .out e.peer e.number .noAnswer none s.minute))) ∧
  (∀ (s : State) (id : Ident) (dest n : Nat) (hold exposure : Option Nat) (o : SendOutcome),
    (∀ e, s.entry id = some e → e.number ≠ n ∨ e.state ≠ .offered none) → s.peerOutcome ⟨dest, .offer id n hold exposure⟩ o = s) ∧
  ∀ (s : State) (id : Ident) (dest n : Nat) (reason : DeclineReason) (o : SendOutcome),
    (o ≠ .accepted →
      (∀ limit, s.entry id = some ⟨id, dest, n, .awaitingArrival limit⟩ →
        s.peerOutcome ⟨dest, .take id n⟩ o = ((s.eraseRecord id).eraseEntry id).emit
          (.transferOutcome id .in_ dest n .takeNotDelivered none s.minute)) ∧
      ((∀ e, s.entry id = some e → e.peer ≠ dest ∨ e.number ≠ n ∨ e.direction = .out) →
        s.peerOutcome ⟨dest, .take id n⟩ o = s) ∧
      s.peerOutcome ⟨dest, .arrived id n⟩ o = s.emit (.transferOutcome id .in_ dest n .arrivalNotDelivered none s.minute)) ∧
    s.peerOutcome ⟨dest, .take id n⟩ .accepted = s ∧ s.peerOutcome ⟨dest, .arrived id n⟩ .accepted = s ∧
    s.peerOutcome ⟨dest, .decline id n reason⟩ o = s ∧ s.peerOutcome ⟨dest, .withdraw id n⟩ o = s

/-! ### The dock -/

/-- O43 (R43, R44, R46, R47, R50, R51): a case arrival. Refused in IDLE at an unconfigured station, in ALARM-1 or later, or with the flag set: the
indicator shows REFUSED; otherwise a session starts in WAKING under the next number and WAKE is sent, or, while the exchange of a session that has ended
is still outstanding, that exchange and any ABORT held for it stand and the WAKE waits for its end; in a session an arrival has no effect but on the
contact. -/
def Obligations.CaseArrivalStartsOrIsRefused : Prop :=
  ∀ s : State, s.settled = true →
    (s.dock.session = .idle → s.configured = false ∨ 2 ≤ seqCode s.fire.seq ∨ s.fire.neighbourAlert = true →
      exec .caseArrival s = .next (({ s with
        pins := { s.pins with casePresent := true },
        dock := { s.dock with indicator := .refused, displayTimer := some s.now } } : State).emit .arrivalRefused)) ∧
    (s.dock.session = .idle → s.configured = true → seqCode s.fire.seq < 2 → s.fire.neighbourAlert = false →
      s.dock.outstanding = none →
      exec .caseArrival s = .next { s with
        pins := { s.pins with casePresent := true },
        dock := { s.dock with
          session := .waking, number := (s.dock.number + 1) % 256, stateTimer := some s.now, indicator := .active,
          displayTimer := none, outstanding := some ⟨.wake, s.now⟩, lastFrame := some .wake, lastSentAt := some s.now } }) ∧
    (s.dock.session = .idle → s.configured = true → seqCode s.fire.seq < 2 → s.fire.neighbourAlert = false →
      ∀ o, s.dock.outstanding = some o →
      exec .caseArrival s = .next { s with
        pins := { s.pins with casePresent := true },
        dock := { s.dock with
          session := .waking, number := (s.dock.number + 1) % 256, stateTimer := some s.now, indicator := .active, displayTimer := none } }) ∧
    (s.dock.session ≠ .idle → exec .caseArrival s = .next { s with pins := { s.pins with casePresent := true } })

/-- O44 (R37, R43, R45, R50, R51, R52, R57, R63, R64, R71, R73): the ends of a session before its commit point. CANCEL, the four timeouts and CLOSE with
an empty list revert it with their outcomes and an ABORT; the removal of the case reverts it without one, and in IDLE drops an ABORT that is pending
and ends the exchange. -/
def Obligations.UncommittedEndsRevertTheSession : Prop :=
  ∀ s : State, s.settled = true →
    (∀ c o, (c = .cancelKey ∧ s.dock.session.beforeCommit = true ∧ o = .cancelled) ∨
        (c = .wakingTimeout ∧ s.dock.session = .waking ∧ o = .noCase) ∨
        (c = .identityTimeout ∧ s.dock.session = .identifying ∧ o = .noIdentity) ∨
        (c = .authTimeout ∧ s.dock.session = .awaitingAuth ∧ o = .authTimeout) ∨
        (c = .idleTimeout ∧ s.dock.session = .loading ∧ o = .idleTimeout) ∨
        (c = .closeKey ∧ s.dock.session = .loading ∧ s.dock.scans = [] ∧ o = .nothingLoaded) →
      ∃ t, exec c s = .next t ∧ (s.dock.pendingAbort = none → s.endedUncommitted o s.dock.outstanding t)) ∧
    (s.dock.session.beforeCommit = true →
      ∃ t, exec .caseRemoval s = .next t ∧
        (({ s with pins := { s.pins with casePresent := false } } : State).endedByRemoval t)) ∧
    (s.dock.session = .idle → exec .caseRemoval s = .next { s with
      pins := { s.pins with casePresent := false }, dock := { s.dock with outstanding := none, pendingAbort := none } }) ∧
    (s.dock.session = .committing ∨ s.dock.session = .idle → exec .cancelKey s = .next s) ∧
    (s.dock.session ≠ .loading → exec .closeKey s = .next s)

/-- O45 (R47, R59, R64, R65): the frames. With no exchange outstanding the dock sends the frame of its state; CLOSE with a list seals it, and the DIGEST of
its count and cyclic check is sent at once where no exchange is outstanding. DOCK_FRAME_SEND in IDLE changes nothing (log 2). -/
def Obligations.DockSendsTheFrameOfItsState : Prop :=
  ∀ s : State, s.settled = true →
    (∀ f, s.dock.outstanding = none →
      (s.dock.session = .waking ∧ f = .wake ∨ s.dock.session = .identifying ∧ f = .poll .none ∨
        s.dock.session = .awaitingAuth ∧ f = .poll .none ∨ s.dock.session = .loading ∧ f = .poll s.dock.verdict ∨
        s.dock.session = .sealing ∧ f = .digest s.dock.scans.length (crc (s.dock.scans.flatMap fun e => e.id)) ∨
        s.dock.session = .committing ∧ f = .commit) →
      exec .dockFrameSend s = .next { s with dock := { s.dock with
        outstanding := some ⟨f, s.now⟩, lastFrame := some f, lastSentAt := some s.now } }) ∧
    (s.dock.outstanding ≠ none ∨ s.dock.session = .idle → exec .dockFrameSend s = .next s) ∧
    (s.dock.session = .loading → s.dock.scans ≠ [] →
      (∀ d, s.dock.outstanding = none → d = .digest s.dock.scans.length (crc (s.dock.scans.flatMap fun e => e.id)) →
        exec .closeKey s = .next { s with dock := { s.dock with
          session := .sealing, faults := 0, idleTimer := none,
          outstanding := some ⟨d, s.now⟩, lastFrame := some d, lastSentAt := some s.now } }) ∧
      (s.dock.outstanding ≠ none → exec .closeKey s = .next { s with dock := { s.dock with
        session := .sealing, faults := 0, idleTimer := none } }))

/-- O46 (R48 to R50, R52, R69, R70, R191): a frame fault: no answer in time, or an answer, as bytes or by its row, that is not well formed or of a kind not
admitted. In WAKING it only ends the exchange; elsewhere it is counted; the third ends the session with LINK FAULT, or in COMMITTING with HANDOVER
UNCONFIRMED, which reverts nothing. In SEALING and COMMITTING the frame is sent again at once after a bad answer (log 28), and after a time-out by
DOCK_FRAME_SEND, which O45 states (log 34). After the session's end a time-out or any answer, well formed or not, ends the exchange, and the ABORT held
for it is sent. An answer that comes after the 500 ms of its exchange, or with no exchange outstanding, is discarded. -/
def Obligations.ThirdFrameFaultEndsTheSession : Prop :=
  (∀ (s : State) (o : Outstanding) (c : Instr), s.settled = true → s.dock.outstanding = some o → s.dock.session ≠ .idle →
    s.dock.pendingAbort = none →
    (c = .dockAnswerTimeout ∨ s.now ≤ o.sentAt + 500 ∧
      ((∃ bytes, c = .malformedCaseFrame bytes ∧ ∀ f, caseFrameOf bytes = some f → (caseFrameOk f && admits o.frame f) = false) ∨
        ∃ f, caseAnswerOf c = some f ∧ (caseFrameOk f && admits o.frame f) = false)) →
    (s.dock.session = .waking → exec c s = .next { s with dock := { s.dock with outstanding := none } }) ∧
    (s.dock.session = .identifying ∨ s.dock.session = .awaitingAuth ∨ s.dock.session = .loading → s.dock.faults < 2 →
      exec c s = .next { s with dock := { s.dock with outstanding := none, faults := s.dock.faults + 1 } }) ∧
    (∀ f, s.dock.session = .sealing ∧ f = .digest s.dock.scans.length (crc (s.dock.scans.flatMap fun e => e.id)) ∨
        s.dock.session = .committing ∧ f = .commit → s.dock.faults < 2 →
      exec c s = .next (if c = .dockAnswerTimeout then
          { s with dock := { s.dock with faults := s.dock.faults + 1, outstanding := none } }
        else { s with dock := { s.dock with
          faults := s.dock.faults + 1, outstanding := some ⟨f, s.now⟩, lastFrame := some f, lastSentAt := some s.now } })) ∧
    (s.dock.session = .identifying ∨ s.dock.session = .awaitingAuth ∨ s.dock.session = .loading ∨ s.dock.session = .sealing →
      2 ≤ s.dock.faults → ∃ t, exec c s = .next t ∧ s.endedUncommitted .linkFault none t) ∧
    (s.dock.session = .committing → 2 ≤ s.dock.faults → exec c s = .next (({ s with dock := { idleDock s.dock.number with
        indicator := .refused, displayTimer := some s.now, lastFrame := s.dock.lastFrame, lastSentAt := s.dock.lastSentAt } } : State).withNotices
      (s.emit (.sessionEnded (s.commitReport .handoverUnconfirmed))).notices))) ∧
  (∀ (s : State) (o : Outstanding) (c : Instr), s.settled = true → s.dock.outstanding = some o → s.dock.session = .idle →
    (c = .dockAnswerTimeout ∨ s.now ≤ o.sentAt + 500 ∧ ((∃ bytes, c = .malformedCaseFrame bytes) ∨ ∃ f, caseAnswerOf c = some f)) →
    exec c s = .next { s with dock := { s.dock with
      outstanding := none,
      pendingAbort := none,
      lastFrame := match s.dock.pendingAbort with | some a => some (.abort a) | none => s.dock.lastFrame,
      lastSentAt := if s.dock.pendingAbort.isSome then some s.now else s.dock.lastSentAt } }) ∧
  (∀ (s : State) (c : Instr), s.settled = true → (∀ o, s.dock.outstanding = some o → o.sentAt + 500 < s.now) →
    ((∃ bytes, c = .malformedCaseFrame bytes) ∨ ∃ f, caseAnswerOf c = some f) → exec c s = .next s) ∧
  (∀ d f, admits d f = true ↔ d = .wake ∧ f = .awake ∨
    (∃ v, d = .poll v) ∧ (f = .nothing ∨ (∃ id, f = .scan id) ∨ ∃ i b n k l, f = .identity i b n k l) ∨
    (∃ n g, d = .digest n g) ∧ (∃ n g, f = .echo n g) ∨ d = .commit ∧ ∃ n, f = .done n) ∧
  ∀ caseId badge count intent intervals, caseFrameOk (.identity caseId badge count intent intervals) = true ↔
    1 ≤ caseId.toNat ∧ badge.toNat ≤ 999999 ∧ (intent = 1 ∨ intent = 2) ∧ intervals.length ≤ 255

/-- O47 (R48, R51 to R54, R59, R64): the accepted answers before the commit point but SCAN in LOADING and ECHO, within 500 ms of their frame: AWAKE in WAKING,
a well-formed IDENTITY in IDENTIFYING with its clamped summary and its AUTHORIZATION WANTED event, and NOTHING in LOADING. An accepted answer that the
state has no use for ends the exchange, clears the fault count and does nothing else: NOTHING and SCAN in IDENTIFYING, those and IDENTITY in AWAITING
AUTH, IDENTITY in LOADING, and in SEALING the answer to the last POLL, after which the DIGEST follows at once (log 28). Bytes that spell an answer are
taken as that answer. -/
def Obligations.AnswersMoveTheSessionOn : Prop :=
  ∀ (s : State) (o : Outstanding), s.settled = true → s.dock.outstanding = some o → s.dock.pendingAbort = none →
    s.now ≤ o.sentAt + 500 →
    (s.dock.session = .waking → o.frame = .wake → exec .awake s = .next { s with dock := { s.dock with
      outstanding := none, session := .identifying, faults := 0, stateTimer := some s.now } }) ∧
    (∀ v, s.dock.session = .loading → o.frame = .poll v → exec .nothing s = .next { s with dock := { s.dock with
      outstanding := none, faults := 0, verdict := .none } }) ∧
    (∀ v caseId badge count intent intervals, s.dock.session = .identifying → o.frame = .poll v →
      1 ≤ caseId.toNat → badge.toNat ≤ 999999 → intervals.length ≤ 255 →
      (intent = 1 → exec (.identity caseId badge count intent intervals) s = .next (({ s with dock := { s.dock with
          outstanding := none, session := .awaitingAuth, faults := 0, intent := some .departing,
          identity := some ⟨caseId.toNat, badge.toNat, count.toNat, .departing, []⟩,
          stateTimer := none, authTimer := some s.now } } : State).emit
        (.authorizationWanted s.dock.number caseId.toNat badge.toNat count.toNat .departing none none))) ∧
      (intent = 2 → exec (.identity caseId badge count intent intervals) s = .next (({ s with dock := { s.dock with
          outstanding := none, session := .awaitingAuth, faults := 0, intent := some .returning,
          identity := some ⟨caseId.toNat, badge.toNat, count.toNat, .returning, keptSummary intervals⟩,
          stateTimer := none, authTimer := some s.now } } : State).emit
        (.authorizationWanted s.dock.number caseId.toNat badge.toNat count.toNat .returning
          (some (keptSummary intervals).length) (some ((keptSummary intervals).map (·.minutes)).sum))))) ∧
    (∀ c f v, o.frame = .poll v → caseAnswerOf c = some f → caseFrameOk f = true →
      (s.dock.session = .identifying ∧ (f = .nothing ∨ ∃ id, f = .scan id) ∨
          s.dock.session = .awaitingAuth ∧ (f = .nothing ∨ (∃ id, f = .scan id) ∨ ∃ i b n k l, f = .identity i b n k l) ∨
          s.dock.session = .loading ∧ (∃ i b n k l, f = .identity i b n k l) →
        exec c s = .next { s with dock := { s.dock with outstanding := none, faults := 0 } }) ∧
      (∀ d, s.dock.session = .sealing → d = .digest s.dock.scans.length (crc (s.dock.scans.flatMap fun e => e.id)) →
        f = .nothing ∨ (∃ id, f = .scan id) ∨ (∃ i b n k l, f = .identity i b n k l) →
        exec c s = .next { s with dock := { s.dock with
          faults := 0, outstanding := some ⟨d, s.now⟩, lastFrame := some d, lastSentAt := some s.now } })) ∧
    ∀ c f bytes, caseAnswerOf c = some f → caseFrameOf bytes = some f → exec (.malformedCaseFrame bytes) s = exec c s

/-- O48 (R53): the kept summary, for every input: the first 24 intervals in the case's order, each value above its range at the top and each
temperature below at the bottom, then without those of 0 minutes; so none is out of range, and the total lies between 0 and 5,760. -/
def Obligations.KeptSummaryIsClamped : Prop :=
  ∀ (intervals : List RawInterval) (clamp : RawInterval → Interval),
    (∀ i, clamp i = ⟨if 240 < i.minutes.toNat then 240 else i.minutes.toNat, if 1000 < i.rh.toNat then 1000 else i.rh.toNat,
      if i.temperature.toInt < -200 then -200 else if 600 < i.temperature.toInt then 600 else i.temperature.toInt⟩) →
    keptSummary intervals = ((intervals.take 24).map clamp).filter (fun i => decide (i.minutes ≠ 0)) ∧
    (keptSummary intervals).length ≤ 24 ∧
    (∀ i ∈ keptSummary intervals, 1 ≤ i.minutes ∧ i.minutes ≤ 240 ∧ i.rh ≤ 1000 ∧ -200 ≤ i.temperature ∧ i.temperature ≤ 600) ∧
    ((keptSummary intervals).map (·.minutes)).sum ≤ 5760

/-- O49 (R48, R58 to R62): a SCAN accepted in LOADING, within 500 ms of its POLL, restarts the idle timer and ends the exchange. HELD in ALARM-1,
MALFORMED for a malformed identifier, ACCEPTED without change for one already listed; a DEPART scan takes a RESERVED member of the bound manifest to
LOADING, a RETURN scan an OUT record to RETURNING, marked where its case differs, or lists an identifier without a record as UNREGISTERED while there
is room. -/
def Obligations.ScansAreJudgedInOrder : Prop :=
  ∀ (s : State) (o : Outstanding) (v : Verdict) (id : Ident), s.settled = true → s.dock.outstanding = some o →
    o.frame = .poll v → s.now ≤ o.sentAt + 500 → s.dock.pendingAbort = none → s.dock.session = .loading → id.length = 10 →
    ∃ scanned : List ScanEntry → Verdict → State,
      (∀ list verdict, scanned list verdict = { s with dock := { s.dock with
        outstanding := none, faults := 0, idleTimer := some s.now, scans := list, verdict := verdict } }) ∧
      (s.fire.seq = .alarm1 → exec (.scan id) s = .next (scanned s.dock.scans .held)) ∧
      (s.fire.seq ≠ .alarm1 → identOk id = false → exec (.scan id) s = .next (scanned s.dock.scans (.rejected .malformed))) ∧
      (s.fire.seq ≠ .alarm1 → identOk id = true → s.scanned id = true →
        exec (.scan id) s = .next (scanned s.dock.scans .accepted)) ∧
      (s.fire.seq ≠ .alarm1 → identOk id = true → s.scanned id = false →
        (s.dock.intent = some .departing →
          ((∀ x p n, s.find id = some x → x.st = .reserved p n → s.dock.manifest ≠ some n) →
            exec (.scan id) s = .next (scanned s.dock.scans (.rejected .notOnManifest))) ∧
          (∀ x p n, s.find id = some x → x.st = .reserved p n → s.dock.manifest = some n →
            (32 ≤ s.dock.scans.length → exec (.scan id) s = .next (scanned s.dock.scans (.rejected .listFull))) ∧
            (s.dock.scans.length < 32 → exec (.scan id) s =
              .next ((scanned (s.dock.scans ++ [⟨id, .record false⟩]) .accepted).putRecord
                { x with st := .loading p n, stateMinute := s.minute })))) ∧
        (s.dock.intent = some .returning →
          (32 ≤ s.dock.scans.length → exec (.scan id) s = .next (scanned s.dock.scans (.rejected .listFull))) ∧
          (s.dock.scans.length < 32 →
            (∀ x, s.find id = some x → x.st.code ≠ 3 →
              exec (.scan id) s = .next (scanned s.dock.scans (.rejected .duplicate))) ∧
            (∀ x c, s.find id = some x → x.st = .out c → exec (.scan id) s =
              .next ((scanned (s.dock.scans ++
                  [⟨id, .record (decide (s.dock.identity.map (·.caseId) ≠ some c.caseId))⟩]) .accepted).putRecord
                { x with st := .returning c, stateMinute := s.minute })) ∧
            (s.find id = none → s.occupancy < 1024 →
              exec (.scan id) s = .next (scanned (s.dock.scans ++ [⟨id, .unregistered⟩]) .accepted)) ∧
            (s.find id = none → 1024 ≤ s.occupancy →
              exec (.scan id) s = .next (scanned s.dock.scans (.rejected .registerFull))))))

/-- O50 (R66, R67): a matching ECHO of a DEPART session, within 500 ms of its DIGEST, is the commit point: every record of the scan list goes OUT with
the case, the count plus one and the minute, without position, exposure or mark; the rest of the manifest goes back to SHELVED and its entry is free,
in one change. That COMMIT is outstanding in the same next state is the model's reading of R47 (log 28). -/
def Obligations.DepartEchoCommits : Prop :=
  ∀ (s : State) (o : Outstanding) (i : CaseIdentity) (n : Nat), s.settled = true → s.dock.outstanding = some o →
    (∃ k d, o.frame = .digest k d) → s.now ≤ o.sentAt + 500 → s.dock.pendingAbort = none → s.dock.session = .sealing →
    s.dock.intent = some .departing →
    s.dock.identity = some i → s.dock.manifest = some n → 1 ≤ n → s.dock.scans.length ≤ 32 →
    s.dock.scans.all s.entryReady = true →
    ∃ t, exec (.echo (BitVec.ofNat 8 s.dock.scans.length) (crc (s.dock.scans.flatMap fun e => e.id))) s = .next t ∧
      t = { s with
        custody := { s.custody with
          manifests := s.custody.manifests.set (n - 1) none,
          register := s.custody.register.map fun r =>
            match r.st with
            | .loading p m =>
              if r.id ∈ s.dock.scans.map (·.id) then
                { r with st := .out ⟨i.caseId, (i.count + 1) % 65536, s.minute⟩, exposure := none, logAbsent := false,
                         stateMinute := s.minute }
              else { r with st := .loading p m }
            | .reserved p m => if m = n then { r with st := .shelved (some p), stateMinute := s.minute } else r
            | _ => r },
        dock := { s.dock with
          session := .committing, scans := [], faults := 0, outstanding := some ⟨.commit, s.now⟩, lastFrame := some .commit,
          lastSentAt := some s.now,
          commit := some ⟨s.dock.scans.length, s.dock.scans.length,
            s.custody.register.countP (fun r => match r.st with | .reserved _ m => m == n | _ => false), 0, 0, 0⟩ } }

/-- O51 (R66, R68, R73, R77, R86): a matching ECHO of a RETURN session, within its time, is the commit point: every entry's record becomes what its settling
gives, other identifiers read as before, the counts by classification are taken, SUSPECT ENTRY is emitted for each SUSPECT record in scan-list order,
and COMMIT is sent in the same step (log 28); an ECHO of another count or digest ends the session DIGEST MISMATCH with its records reverted. -/
def Obligations.ReturnEchoSettlesOrMismatchReverts : Prop :=
  ∀ (s : State) (o : Outstanding) (i : CaseIdentity), s.settled = true → s.dock.outstanding = some o →
    (∃ k d, o.frame = .digest k d) → s.now ≤ o.sentAt + 500 → s.dock.pendingAbort = none → s.dock.session = .sealing →
    s.dock.identity = some i → s.dock.scans.length ≤ 32 →
    (s.dock.intent = some .returning → s.dock.scans.all s.entryReady = true → (s.dock.scans.map (·.id)).Nodup →
      ∀ settled : List Record, settled = s.dock.scans.map (fun e => settleEntry s.cfg i s.minute e ((s.find e.id).bind (·.st.case))) →
      ∃ t, exec (.echo (BitVec.ofNat 8 s.dock.scans.length) (crc (s.dock.scans.flatMap fun e => e.id))) s = .next t ∧
        t = { s with custody := { s.custody with register := t.custody.register }, dock := t.dock, notices := t.notices } ∧
        (∀ e ∈ s.dock.scans, t.find e.id =
          some (settleEntry s.cfg i s.minute e ((s.find e.id).bind (·.st.case)))) ∧
        (∀ id, id ∉ s.dock.scans.map (·.id) → t.find id = s.find id) ∧
        t.dock = { s.dock with
          session := .committing, scans := [], faults := 0, outstanding := some ⟨.commit, s.now⟩, lastFrame := some .commit,
          lastSentAt := some s.now,
          commit := some ⟨s.dock.scans.length, 0, 0, settled.countP fun r => r.st.code == 5,
            settled.countP fun r => r.st.code == 0, settled.countP fun r => r.st.code == 6⟩ } ∧
        t.notices = (s.emitAll (settled.filterMap fun r =>
          match r.st with
          | .suspect _ advised reason => some (.suspectEntry r.id reason advised)
          | _ => none)).notices) ∧
    (∀ count digest, count.toNat ≠ s.dock.scans.length ∨ digest ≠ crc (s.dock.scans.flatMap fun e => e.id) →
      ∃ t, exec (.echo count digest) s = .next t ∧ s.endedUncommitted .digestMismatch none t)

/-- O52 (R78 to R85): the settling of one entry. The exposure is the saturated sum of the covered exposure and U times the uncovered minutes; the hold is the
base hold plus the exposure over K rounded up, at most the ceiling; the class is the first that holds, UNREGISTERED, COUNT MISMATCH, CUSTODY MISMATCH,
EXPOSURE, CONDITIONING, SHELVED, a suspect advised its hold if that is 1 or more. -/
def Obligations.SettlingClassifiesByExposureAndCount : Prop :=
  ∀ (c : ConfigRecord) (i : CaseIdentity) (minute : Nat) (id : Ident) (covered e up h : Nat) (advised : Option Nat),
    covered = i.summary.foldl (fun (total : Nat) (x : Interval) => min 16777215 (total + min 16777215
        ((((x.rh : Int) - c.rhSet).natAbs - c.rhBand + 2 * ((x.temperature - c.tempSet).natAbs - c.tempBand)) * x.minutes))) 0 →
    (e ≤ up * c.divisor ∧ ∀ k, e ≤ k * c.divisor → up ≤ k) → h = min (c.baseHold + up) c.ceiling →
    advised = (if h = 0 then none else some h) →
    (∀ (mismatch : Bool) (f : CaseField),
      e = min 16777215 (covered +
        min 16777215 (c.uncovered * (minute - f.departureMinute - (i.summary.map (·.minutes)).sum))) →
      settleEntry c i minute ⟨id, .record mismatch⟩ (some f) = ⟨id,
        if f.departureCount ≠ i.count then .suspect none advised .countMismatch
        else if mismatch then .suspect none advised .custodyMismatch
        else if c.exposureLimit ≠ 0 ∧ c.exposureLimit ≤ e then .suspect none advised .exposure
        else if h = 0 then .shelved none else .conditioning none h, some e, i.summary.isEmpty, minute⟩) ∧
    (e = covered →
      settleEntry c i minute ⟨id, .unregistered⟩ none =
        ⟨id, .suspect none advised .unregistered, some e, i.summary.isEmpty, minute⟩)

/-- O53 (R43, R46, R70, R73): a DONE in COMMITTING ends the session: COMMITTED and the indicator OFF for the expected count, wrapping, HANDOVER
UNCONFIRMED and REFUSED for any other; no record changes and no ABORT is sent. The removal of the case ends it HANDOVER UNCONFIRMED, with an exchange
outstanding, which it ends, or with none. REFUSED goes OFF at its expiry, and another indicator stays (log 2). -/
def Obligations.DoneEndsTheHandover : Prop :=
  (∀ (s : State) (o : Outstanding) (i : CaseIdentity), s.settled = true → s.dock.outstanding = some o → o.frame = .commit →
    s.dock.pendingAbort = none → s.dock.session = .committing → s.dock.identity = some i →
    ∀ (count : Word16) (outcome : SessionOutcome), s.now ≤ o.sentAt + 500 →
      (outcome = if count.toNat = (i.count + 1) % 65536 then .committed else .handoverUnconfirmed) →
      exec (.done count) s = .next (({ s with dock := { idleDock s.dock.number with
          indicator := if outcome = .committed then .off else .refused,
          displayTimer := if outcome = .committed then none else some s.now,
          lastFrame := s.dock.lastFrame, lastSentAt := s.dock.lastSentAt } } : State).withNotices
        (s.emit (.sessionEnded (s.commitReport outcome))).notices)) ∧
  (∀ s : State, s.settled = true → s.dock.session = .committing →
    exec .caseRemoval s = .next (({ s with
        pins := { s.pins with casePresent := false },
        dock := { idleDock s.dock.number with
          indicator := .refused, displayTimer := some s.now, lastFrame := s.dock.lastFrame, lastSentAt := s.dock.lastSentAt } } : State).withNotices
      (s.emit (.sessionEnded (s.commitReport .handoverUnconfirmed))).notices)) ∧
  ∀ s : State, s.settled = true →
    (s.dock.indicator = .refused →
      exec .refusedDisplayExpiry s = .next { s with dock := { s.dock with indicator := .off, displayTimer := none } }) ∧
    (s.dock.indicator ≠ .refused → exec .refusedDisplayExpiry s = .next s)

/-! ### The climate -/

/-- O54 (R96, R98 to R101, R114): a poll round starts when the round timer has run out, sets it 2 s on, and asks probe 1; an exchange that is not the
round's last changes its probe's record by the table of R100, holds the PROBE event of a change into FAILED or out of it, and asks the next probe. An
answer after the 200 ms, with no round in progress, or naming another probe whose own exchange has ended with no answer is late and is discarded (the
last is log 35); the round time line is log 23. -/
def Obligations.ProbeExchangesFollowTheTable : Prop :=
  ∀ s : State, s.settled = true →
    (s.climate.round = none →
      (s.climate.nextRound ≤ s.now → exec .pollRound s = .next { s with climate := { s.climate with
        roundStart := s.climate.roundStart + 2, nextRound := s.climate.nextRound + 2000, round := some ⟨1, s.now, []⟩,
        late := s.climate.late.filter fun j => decide (j ≠ 1) } }) ∧
      (s.now < s.climate.nextRound → exec .pollRound s = .next s) ∧ ∀ bytes, exec (.probeAnswer bytes) s = .next s) ∧
    (∀ (k at0 : Nat) (held : List Event) (p : ProbeRecord), s.climate.round = some ⟨k, at0, held⟩ →
      s.climate.probes[k - 1]? = some p → 1 ≤ k → s.polled k = true → s.polled (k + 1) = true →
      (∀ bytes, at0 + 200 < s.now ∨ (∃ j, answeringProbe bytes = some j ∧ j ≠ k ∧ j ∈ s.climate.late) →
        exec (.probeAnswer bytes) s = .next s) ∧
      (∀ bytes r, s.now ≤ at0 + 200 → probeReading k bytes = some r →
        exec (.probeAnswer bytes) s = .next { s with climate := { s.climate with
          probes := s.climate.probes.set (k - 1) ⟨.valid, some r, s.climate.roundStart, true⟩,
          late := s.climate.late.filter fun j => decide (j ≠ k + 1),
          round := some ⟨k + 1, s.now,
            held ++ if p.state = .failed ∧ p.heard = true then [.probe k .valid r] else []⟩ } }) ∧
      (∀ (c : Instr) (late : List Nat),
        (c = .probeAnswerTimeout ∧ late = (k :: s.climate.late).filter (fun j => decide (j ≠ k + 1)) ∨
          s.now ≤ at0 + 200 ∧ late = s.climate.late.filter (fun j => decide (j ≠ k + 1)) ∧
            ∃ bytes, c = .probeAnswer bytes ∧ probeReading k bytes = none ∧
              ∀ j, answeringProbe bytes = some j → j = k ∨ j ∉ s.climate.late) →
        (p.state = .failed →
          exec c s = .next { s with climate := { s.climate with late := late, round := some ⟨k + 1, s.now, held⟩ } }) ∧
        (p.state ≠ .failed → s.climate.roundStart - p.stamp ≤ 30 → exec c s = .next { s with climate := { s.climate with
          probes := s.climate.probes.set (k - 1) { p with state := .stale }, late := late,
          round := some ⟨k + 1, s.now, held⟩ } }) ∧
        (∀ r, p.state ≠ .failed → 30 < s.climate.roundStart - p.stamp → p.reading = some r →
          exec c s = .next { s with climate := { s.climate with
            probes := s.climate.probes.set (k - 1) { p with state := .failed, reading := none }, late := late,
            round := some ⟨k + 1, s.now, held ++ [.probe k .failed r]⟩ } })))

/-- O55 (R99 to R106): the end of a round, at the last probe's answer or time-out. The zone value is the mean of the usable probes, a half rounded
upward, or UNKNOWN; the band and the spread are judged on it, a change of the band emits ZONE BAND, and the spread becoming high emits PROBE with the RH
spread and a highest and a lowest probe (which of several is log 11) after the events held; an output that is OFF goes ON only past its control band and
its minimum-off time with nothing forcing, one that is ON goes OFF at the set point and records the time, and both are OFF while anything forces. -/
def Obligations.RoundEndFormsZoneValue : Prop :=
  ∀ (s : State) (k at0 : Nat) (held : List Event) (p after : ProbeRecord) (c : Instr), s.settled = true →
    s.climate.round = some ⟨k, at0, held⟩ → s.climate.probes[k - 1]? = some p → 1 ≤ k → s.polled k = true →
    s.polled (k + 1) = false →
    (c = .probeAnswerTimeout ∧ p.missed s.climate.roundStart after ∨
      s.now ≤ at0 + 200 ∧ ∃ bytes, c = .probeAnswer bytes ∧
        ((∃ r, probeReading k bytes = some r ∧ after = ⟨.valid, some r, s.climate.roundStart, true⟩) ∨
          probeReading k bytes = none ∧ (∀ j, answeringProbe bytes = some j → j = k ∨ j ∉ s.climate.late) ∧
            p.missed s.climate.roundStart after)) →
    ∃ t, exec c s = .next t ∧
      t = { s with climate := t.climate, notices := t.notices, free := t.free } ∧ t.climate.round = none ∧
      t.climate.probes = s.climate.probes.set (k - 1) after ∧ t.climate.roundStart = s.climate.roundStart ∧
      t.climate.nextRound = s.climate.nextRound ∧ t.climate.account = s.climate.account ∧ t.climate.latch = s.climate.latch ∧
      t.zoneFormed ∧ t.bandFormed ∧
      (t.forcing = true → t.climate.humidify.on = false ∧ t.climate.dehumidify.on = false) ∧
      (∀ z, t.forcing = false → t.climate.zone = some z →
        (t.climate.humidify.on = true ↔
          (s.climate.humidify.on = true ∧ z.rh < s.cfg.rhSet ∨
            s.climate.humidify.on = false ∧ z.rh + s.cfg.controlBand < s.cfg.rhSet ∧
              ∀ off, s.climate.humidify.offAt = some off → 120000 ≤ s.now - off)) ∧
        (t.climate.dehumidify.on = true ↔
          (s.climate.dehumidify.on = true ∧ s.cfg.rhSet < z.rh ∨
            s.climate.dehumidify.on = false ∧ s.cfg.rhSet + s.cfg.controlBand < z.rh ∧
              ∀ off, s.climate.dehumidify.offAt = some off → 120000 ≤ s.now - off))) ∧
      t.climate.humidify.offAt =
        (if s.climate.humidify.on = true ∧ t.climate.humidify.on = false then some s.now else s.climate.humidify.offAt) ∧
      t.climate.dehumidify.offAt =
        (if s.climate.dehumidify.on = true ∧ t.climate.dehumidify.on = false then some s.now else s.climate.dehumidify.offAt) ∧
      (s.notices.pending.length = 16 → (∀ e ∈ held, e.source = 13) →
        (∀ n, n ≠ 12 → n ≠ 13 → t.pendingNotice n = s.pendingNotice n) ∧
        (t.climate.inBand = s.climate.inBand → t.pendingNotice 12 = s.pendingNotice 12) ∧
        (t.climate.inBand ≠ s.climate.inBand → s.records 12 = true →
          ∃ x, t.pendingNotice 12 = some x ∧ x.content = .zoneBand t.climate.inBand t.climate.zone) ∧
        (t.climate.spreadHigh = false ∨ s.climate.spreadHigh = true →
          t.pendingNotice 13 = (s.emitAll (held ++ probeEvent k p after)).pendingNotice 13) ∧
        (t.climate.spreadHigh = true → s.climate.spreadHigh = false → s.records 13 = true →
          ∃ x a b high low, t.pendingNotice 13 = some x ∧ x.content = .spreadHigh (high.rh - low.rh) a b ∧ (a, high) ∈ t.usable ∧
            (b, low) ∈ t.usable ∧ ∀ y ∈ t.usable, low.rh ≤ y.2.rh ∧ y.2.rh ≤ high.rh))

/-! ### The fire -/

/-- O56 (R71, R72, R107, R116 to R123, R129, R133, R134, R138, R155): a channel event, an operation of the call point, a change of hold or isolate.
The three conditions are those of R120 over the in-service channels. The input is recorded, the latch set by an operation, an assigned channel's
passage into or out of FAULT reported, and the sequence goes to the state that its one evaluation gives, with its FIRE STATE event. An entry to
confirmation ends a session before its commit point with FIRE, its records and its manifest reverted and its ABORT sent or held, and withdraws every
OFFERED entry: the record restored, the entry freed, a WITHDRAW queued while there is room, and an event. Hold or isolate ON takes PRE-DISCHARGE back
to CONFIRMED with its countdown discarded and the cause HELD, both OFF take CONFIRMED to PRE-DISCHARGE with the full countdown and the cause RELEASED.
A change of state turns OFF an output that is ON where anything forces. That FIRE STATE lists the channels in FAULT by ascending number is the model's
choice (log 41). -/
def Obligations.InputsEvaluateTheSequence : Prop :=
  (∀ s : State,
    (s.alertCondition = true ↔ ∃ c, c < 8 ∧ s.group c ≠ .unused ∧ s.channel c = .alert) ∧
    (s.alarmCondition = true ↔ ∃ c, c < 8 ∧ s.group c ≠ .unused ∧ s.channel c = .alarm) ∧
    ∀ serving : Group → Nat → Prop, (∀ g c, serving g c ↔ c < 8 ∧ s.group c = g ∧ s.channel c ≠ .fault) →
      (s.confirmationCondition = true ↔
        (∃ c, serving .a c ∧ s.channel c = .alarm) ∧ (∃ c, serving .b c ∧ s.channel c = .alarm) ∨
          ∃ g other, (g = .a ∧ other = .b ∨ g = .b ∧ other = .a) ∧ (∀ c, ¬serving other c) ∧
            ∃ c d, c ≠ d ∧ serving g c ∧ serving g d ∧ s.channel c = .alarm ∧ s.channel d = .alarm)) ∧
  ∀ s : State, s.settled = true →
    (∀ (c : Instr) (u : State) (q : Seq), q = u.evaluatedSeq →
      ((∃ ch st, c = .channelEvent ch st ∧ u = { s with
          pins := { s.pins with channels := s.pins.channels.set ch.val st },
          fire := { s.fire with channels := s.fire.channels.set ch.val st } }) ∨
        (c = .manualCallOperation ∧ u = { s with
          pins := { s.pins with callOperated := true },
          fire := { s.fire with callOperated := true, callLatch := true } }) ∨
        (∃ on, c = .holdOrIsolateChange .hold on ∧ s.fire.seq ≠ .confirmed ∧ s.fire.seq ≠ .preDischarge ∧
          u = { s with pins := { s.pins with holdOn := on }, fire := { s.fire with holdOn := on } }) ∨
        (∃ on, c = .holdOrIsolateChange .isolate on ∧ s.fire.seq ≠ .confirmed ∧ s.fire.seq ≠ .preDischarge ∧
          u = { s with pins := { s.pins with isolateOn := on }, fire := { s.fire with isolateOn := on } })) →
      ∃ t, exec c s = .next t ∧ t.fire.seq = q ∧ t.pins = u.pins ∧ t.fire.channels = u.fire.channels ∧
        t.fire.callOperated = u.fire.callOperated ∧ t.fire.callLatch = u.fire.callLatch ∧ t.fire.holdOn = u.fire.holdOn ∧
        t.fire.isolateOn = u.fire.isolateOn ∧
        t = { u.afterSequence t with
          custody := t.custody, dock := t.dock, transfer := t.transfer, line := { u.line with peerOut := t.line.peerOut } } ∧
        (seqCode q < 3 ∨ u.dock.session.beforeCommit = false ∧ (∀ e ∈ u.transfer.entries, e.isOffered = false) →
          t = u.afterSequence t) ∧
        (q = s.fire.seq → t = { u with notices := t.notices }) ∧
        (q ≠ s.fire.seq → t.fire = { u.fire with
          seq := q, release := false, pulse := none, soak := none,
          countdown := if q = .preDischarge then some (s.now + 1000 * s.cfg.preDischarge) else none,
          sounder := sounderFor q s.fire.generalSeen, damperClosed := damperFor q s.fire.neighbourAlert } ∧
          t.climate = s.climateForcedIn t) ∧
        (s.notices.pending.length = 16 →
          (q = s.fire.seq → t.pendingNotice 0 = s.pendingNotice 0) ∧
          (q ≠ s.fire.seq → s.records 0 = true → ∃ x, t.pendingNotice 0 = some x ∧ x.content = .fireState q s.fire.seq
            (if q = .preAlert then .alert
              else if q = .quiet then .alertCleared
              else if q = .alarm1 then (if u.alarmCondition then .alarm else .manualCall)
              else if u.confirmationCondition then .confirmation else .manualCall)
            u.alarmChannels u.faultChannels u.fire.callOperated u.fire.callLatch u.fire.holdOn u.fire.isolateOn
            u.fire.doorOpen u.fire.agentReady u.custody.zoneClock) ∧
          (∀ ch st, c = .channelEvent ch st → s.group ch.val ≠ .unused → ¬(s.channel ch.val = .fault ↔ st = .fault) →
            s.records 2 = true → ∃ x, t.pendingNotice 2 = some x ∧ x.content =
              .detectorFault ch.val (s.group ch.val) (u.channel ch.val) (u.groupInService (s.group ch.val)).length) ∧
          ((∀ ch st, c = .channelEvent ch st → s.group ch.val = .unused ∨ (s.channel ch.val = .fault ↔ st = .fault)) →
            t.pendingNotice 2 = s.pendingNotice 2)) ∧
        (3 ≤ seqCode q → seqCode s.fire.seq < 3 → s.canonical = true →
          t.dock.session.beforeCommit = false ∧
          (s.dock.session.beforeCommit = false → t.dock = s.dock ∧ t.custody.manifests = s.custody.manifests) ∧
          (s.dock.session.beforeCommit = true → s.dock.pendingAbort = none →
            t.dock = { idleDock s.dock.number with
              outstanding := s.dock.outstanding,
              pendingAbort := if s.dock.outstanding.isSome then some .fire else none,
              indicator := .refused, displayTimer := some s.now,
              lastFrame := if s.dock.outstanding.isSome then s.dock.lastFrame else some (.abort .fire),
              lastSentAt := if s.dock.outstanding.isSome then s.dock.lastSentAt else some s.now } ∧
            (∀ n, t.manifest? n = if s.dock.manifest = some n then (s.manifest? n).map (fun m => { m with state := .waiting })
              else s.manifest? n) ∧
            (∀ id x p m, s.find id = some x → x.st = .loading p m →
              t.find id = some { x with st := .reserved p m, stateMinute := s.minute }) ∧
            (∀ id x f, s.find id = some x → x.st = .returning f →
              t.find id = some { x with st := .out f, stateMinute := s.minute }) ∧
            (s.notices.pending.length = 16 → s.records 7 = true → ∃ y, t.pendingNotice 7 = some y ∧ y.content =
              .sessionEnded { s.report .fire s.dock.scans.length with reverted := some s.dock.scans.length })) ∧
          t.transfer = { s.transfer with entries := s.transfer.entries.filter fun e => !e.isOffered } ∧
          (∀ e ∈ s.transfer.entries, ∀ x peer restore, e.isOffered = true → s.find e.id = some x →
            x.st = .transferring peer restore → t.find e.id = some { x with
              stateMinute := s.minute,
              st := match restore.state with
                | .shelved => .shelved restore.position
                | .conditioning h => .conditioning restore.position (min h s.cfg.ceiling) }) ∧
          (∀ id x, s.find id = some x → x.st.code ≠ 2 → x.st.code ≠ 4 → x.st.code ≠ 7 → t.find id = some x) ∧
          (∀ id, s.find id = none → t.find id = none) ∧
          (s.line.peerOut.length ≤ 16 → t.line.peerOut = (s.line.peerOut ++
            (s.transfer.entries.filter TransferEntry.isOffered).map fun e => (⟨e.peer, .withdraw e.id e.number⟩ : PeerOut)).take 16) ∧
          (∀ e, s.notices.pending.length = 16 → s.records 10 = true →
            (s.transfer.entries.filter TransferEntry.isOffered).getLast? = some e →
            ∃ y, t.pendingNotice 10 = some y ∧ y.content =
              .transferOutcome e.id .out e.peer e.number .withdrawn none s.minute))) ∧
    (∀ (switch : Switch) (on : Bool) (u : State),
      (u = match switch with
        | .hold => { s with pins := { s.pins with holdOn := on }, fire := { s.fire with holdOn := on } }
        | .isolate => { s with pins := { s.pins with isolateOn := on }, fire := { s.fire with isolateOn := on } }) →
      (∀ (next : Seq) (cause : FireCause),
        s.fire.seq = .confirmed ∧ u.fire.holdOn = false ∧ u.fire.isolateOn = false ∧ next = .preDischarge ∧ cause = .released ∨
          s.fire.seq = .preDischarge ∧ (u.fire.holdOn = true ∨ u.fire.isolateOn = true) ∧ next = .confirmed ∧ cause = .held →
        ∃ t, exec (.holdOrIsolateChange switch on) s = .next t ∧ t = u.afterSequence t ∧
          t.fire = { u.fire with
            seq := next, release := false, pulse := none, soak := none,
            countdown := if next = .preDischarge then some (s.now + 1000 * s.cfg.preDischarge) else none,
            sounder := sounderFor next s.fire.generalSeen, damperClosed := damperFor next s.fire.neighbourAlert } ∧
          t.climate = s.climateForcedIn t ∧
          t.notices = (s.emit (.fireState next s.fire.seq cause u.alarmChannels u.faultChannels u.fire.callOperated u.fire.callLatch
            u.fire.holdOn u.fire.isolateOn u.fire.doorOpen u.fire.agentReady s.custody.zoneClock)).notices) ∧
      (s.fire.seq = .confirmed → u.fire.holdOn = true ∨ u.fire.isolateOn = true →
        exec (.holdOrIsolateChange switch on) s = .next u) ∧
      (s.fire.seq = .preDischarge → u.fire.holdOn = false → u.fire.isolateOn = false →
        exec (.holdOrIsolateChange switch on) s = .next u))

/-- O57 (R124 to R130): the timers of the sequence. The countdown's end enters DISCHARGE with the release active and the 10 s pulse if the agent is READY, SOAK
otherwise, and reports RELEASE OUTCOME; the pulse's end enters SOAK with the release inactive; the soak's end enters RESET-WAIT with the sounder OFF.
That an expiry outside its state changes nothing is the model's choice (log 2), and so is the order of the channels in FAULT that FIRE STATE lists (log 41). -/
def Obligations.TimersRunTheReleaseSequence : Prop :=
  ∀ s : State, s.settled = true →
    (∀ (c : Instr) (next : Seq) (cause : FireCause),
      (c = .countdownExpiry ∧ s.fire.seq = .preDischarge ∧ next = (if s.fire.agentReady then .discharge else .soak) ∧
          cause = .countdownExpiry ∨
        c = .pulseEnd ∧ s.fire.seq = .discharge ∧ next = .soak ∧ cause = .pulseEnd ∨
        c = .soakExpiry ∧ s.fire.seq = .soak ∧ next = .resetWait ∧ cause = .soakExpiry) →
      ∃ t, exec c s = .next t ∧ t = s.afterSequence t ∧
        t.fire = { s.fire with
          seq := next, countdown := none,
          pulse := if next = .discharge then some (s.now + 10000) else none,
          soak := if next = .soak then some (s.now + 1000 * s.cfg.soakTime) else none,
          release := decide (next = .discharge),
          sounder := if next = .resetWait then .off else .evacuate,
          damperClosed := true } ∧
        t.climate = s.climateForcedIn t ∧
        (s.notices.pending.length = 16 → s.records 0 = true → ∃ x, t.pendingNotice 0 = some x ∧
          x.content = .fireState next s.fire.seq cause s.alarmChannels s.faultChannels s.fire.callOperated s.fire.callLatch
            s.fire.holdOn s.fire.isolateOn s.fire.doorOpen s.fire.agentReady s.custody.zoneClock) ∧
        (s.notices.pending.length = 16 → s.records 1 = true → c = .countdownExpiry →
          ∃ x, t.pendingNotice 1 = some x ∧ x.content = .releaseOutcome s.fire.agentReady s.fire.doorOpen s.alarmChannels
            s.fire.callLatch s.custody.zoneClock)) ∧
    (s.fire.seq ≠ .preDischarge → exec .countdownExpiry s = .next s) ∧ (s.fire.seq ≠ .discharge → exec .pulseEnd s = .next s) ∧
    (s.fire.seq ≠ .soak → exec .soakExpiry s = .next s)

/-! ### Formats and invariants -/

/-- O58 (R1, R65, R171, R185, R189, R191, 11.1, 11.4): what is sent is laid out by 11.1 and 11.4: the five dock frames and the six case frames, each kind, length, body and
check; the beacon; the five transfer messages; and on the line each message with its kind, destination, tag and payload, each result and state with its
code (the tag of a transfer message is free, log 8). Each event has its source and its content, item by item as its rule lists them (the readings and
choices in them are logs 13, 14, 40 and 43). A slot message is well formed by the tests of R189, each of them, and what is sent passes them. It
is read back as it was: every well-formed case frame, beacon in range, mark, probe answer in range and OFFER. The check is that of R65, bit by bit, and
an identifier is well formed by its ten characters (R1). -/
def Obligations.FormatsReadBackAsSent : Prop :=
  (crc [] = 65535 ∧ ∀ (body : List Byte) (b : Byte), crc (body ++ [b]) = [7, 6, 5, 4, 3, 2, 1, 0].foldl (fun (register : Word16) (i : Nat) =>
      if register.msb = b.getLsbD i then register <<< 1 else (register <<< 1) ^^^ 4129) (crc body)) ∧
    (∀ id : Ident, identOk id = true ↔ id.length = 10 ∧
      ∀ b ∈ id, 48 ≤ b.toNat ∧ b.toNat ≤ 57 ∨ 65 ≤ b.toNat ∧ b.toNat ≤ 90) ∧
    (∀ f : CaseFrame, caseFrameOk f = true → caseFrameOf f.bytes = some f) ∧
    (∀ b : Beacon, b.registerCount ≤ 1024 → beaconOf (beaconBytes b) = some b) ∧
    (∀ n, n ≤ 9 → markNumber (markByte n) = some n) ∧
    (∀ (k rh : Nat) (t : Int) (body : List Byte), k ≤ 4 → rh ≤ 1000 → -400 ≤ t → t ≤ 850 →
      body = BitVec.ofNat 8 k :: (toBytes 2 rh ++ signedBytes t) →
      probeReading k (body ++ toBytes 2 (crc body).toNat) = some ⟨rh, t⟩) ∧
    (∀ (id : Ident) (n : Nat) (hold exposure : Option Nat), id.length = 10 → n < 256 → (∀ h, hold = some h → 1 ≤ h ∧ h < 65536) →
      (∀ e, exposure = some e → e < 16777216) →
      ∃ o, offerOf (PeerBody.bytes (.offer id n hold exposure)) = some o ∧ o.id = id ∧ o.number = n ∧ o.presence ≤ 3 ∧
        o.heldFor = hold ∧ o.exposed = exposure) ∧
    (∀ (kind : Byte) (f : SlotFrame), frameOk kind f = true ↔ f.dest.toNat ≤ 17 ∧ f.length.toNat ≤ 400 ∧
      f.payload.length = f.length.toNat ∧
      f.check = crc (kind :: f.dest :: (toBytes 2 f.tag.toNat ++ toBytes 2 f.length.toNat ++ f.payload)) ∧
      (kind = 1 → ∃ b, beaconOf f.payload = some b)) ∧
    (∀ (kind dest : Nat) (tag : Word16) (payload body : List Byte), 2 ≤ kind → kind ≤ 9 → dest ≤ 17 → payload.length ≤ 400 →
      body = BitVec.ofNat 8 kind :: BitVec.ofNat 8 dest ::
        (toBytes 2 tag.toNat ++ toBytes 2 payload.length ++ payload) →
      messageBytes kind dest tag payload = body ++ toBytes 2 (crc body).toNat ∧
        frameOk (BitVec.ofNat 8 kind) ⟨BitVec.ofNat 8 dest, tag, BitVec.ofNat 16 payload.length, payload, crc body⟩ = true) ∧
    (let two := fun (first : Bool) => if first then (0 : Byte) else 1
      let one := fun (n : Nat) => (BitVec.ofNat 8 n : Byte)
      let list := fun (l : List Nat) => one l.length :: l.map one
      let opt := fun (width : Nat) (n : Option Nat) => match n with
        | none => List.replicate (width + 1) (0 : Byte)
        | some n => 1 :: toBytes width n
      let reading := fun (x : Reading) => toBytes 2 x.rh ++ signedBytes x.temperature
      let seq := fun (q : Seq) => [Seq.quiet, .preAlert, .alarm1, .confirmed, .preDischarge, .discharge, .soak, .resetWait].idxOf q
      let intent := fun (i : Intent) => [Intent.departing, .returning].idxOf i
      ∀ e : Event, (e.source, e.bytes) = match e with
        | .fireState q previous cause alarms faults operated latch hold isolate doorOpen agentReady clock =>
          (0, one (seq q) :: one (seq previous) :: one ([FireCause.alert, .alertCleared, .alarm, .manualCall, .confirmation, .held, .released,
            .countdownExpiry, .pulseEnd, .soakExpiry, .fireReset].idxOf cause) :: (list alarms ++ list faults ++
            [two operated, two latch, two hold, two isolate, two (!doorOpen), two agentReady] ++ toBytes 4 clock))
        | .releaseOutcome discharged doorOpen alarms latch clock =>
          (1, two discharged :: two (!doorOpen) :: (list alarms ++ two latch :: toBytes 4 clock))
        | .detectorFault channel group state inService =>
          (2, [one channel, one ([Group.a, .b, .unused].idxOf group), one ([ChannelState.normal, .alert, .alarm, .fault].idxOf state),
            one inService])
        | .neighbourAlarm flag holders clock => (3, two flag :: (list holders ++ toBytes 4 clock))
        | .peerPresence address presence beacon =>
          (4, one address :: one ([Presence.unknown, .present, .absent].idxOf presence) ::
            (opt 1 (beacon.map fun b => if b.1 then 1 else 0) ++ opt 1 (beacon.map fun b => seq b.2)))
        | .addressConflict address cycle kind => (5, one address :: one cycle :: opt 1 (kind.map (·.toNat)))
        | .authorizationWanted session caseId badge count i intervals minutes =>
          (6, one session :: (toBytes 4 caseId ++ toBytes 3 badge ++ toBytes 2 count ++ one (intent i) :: (opt 1 intervals ++ opt 2 minutes)))
        | .manifestEnded number cause members => (7, [one number, two (cause == .expired), one members])
        | .arrivalRefused => (7, Config.refusedOutcomeCode :: (opt 1 none ++ opt 4 none))
        | .sessionEnded x =>
          (7, one ([SessionOutcome.committed, .handoverUnconfirmed, .noCase, .noIdentity, .denied, .authTimeout, .idleTimeout, .nothingLoaded,
            .digestMismatch, .cancelled, .linkFault, .fire, .caseRemoved].idxOf x.outcome) :: one x.session ::
            (opt 1 (x.intent.map intent) ++ opt 4 x.caseId ++ opt 1 x.manifest ++ [one x.scanCount] ++ opt 1 x.departed ++ opt 1 x.returned ++
              opt 1 x.conditioning ++ opt 1 x.shelved ++ opt 1 x.suspect ++ opt 1 x.reverted))
        | .suspectEntry id reason advised =>
          (8, id ++ one ([SuspectReason.exposure, .countMismatch, .custodyMismatch, .unregistered, .transitLost,
            .transferInterrupted].idxOf reason) :: opt 2 advised)
        | .conditioningComplete id position exposure minute =>
          (9, id ++ (match position with
            | none => [0, 0, 0]
            | some p => [1, one p.rack, one p.slot]) ++ opt 3 exposure ++ toBytes 4 minute)
        | .transferOutcome id direction peer number outcome reason minute =>
          (10, id ++ two (direction == .out) :: one peer :: one number :: one ([TransferOutcome.delivered, .declined, .noAnswer, .withdrawn,
            .resolvedLate, .takeNotDelivered, .arrivalNotDelivered, .cancelledBySender, .abandoned].idxOf outcome) ::
            (opt 1 (reason.map (·.toNat)) ++ toBytes 4 minute))
        | .transitOverdue id destination number minute => (11, id ++ one destination :: one number :: toBytes 4 minute)
        | .zoneBand inBand value =>
          (12, two inBand :: match value with
            | none => [0, 0, 0, 0, 0]
            | some x => 1 :: reading x)
        | .probe number state x => (13, one number :: one ([ProbeState.valid, .stale, .failed].idxOf state) :: reading x)
        | .spreadHigh spread highest lowest => (13, toBytes 2 spread ++ [one highest, one lowest])
        | .excursion account minute => (14, toBytes 3 account ++ toBytes 4 minute)
        | .restart cause interrupted deleted clock =>
          (15, two (cause == .resetInput) :: one interrupted :: one deleted :: toBytes 4 clock)) ∧
    ∀ s : State,
      (∀ n x l, s.pendingNotice n = some x → s.level n = some l → s.itemBytes (.notice n) =
        messageBytes 4 (match s.request.config, s.request.gateway with | some _, some g => g | _, _ => 17) (BitVec.ofNat 16 n)
          (BitVec.ofNat 8 n :: BitVec.ofNat 8 l :: BitVec.ofNat 8 x.repeats :: (toBytes 4 x.time ++ x.content.bytes))) ∧
      (∀ (k : Nat) (a : Answer), [Result.done, .malformed, .unknownRequest, .notConfigured, .alreadyConfigured, .notAuthorized, .noSuchRecord,
          .wrongState, .registerFull, .duplicate, .zoneAlarm, .excursion, .noManifestSlot, .nothingReserved, .noSuchManifest, .noSession,
          .peerUnavailable, .peerFull, .transferTableFull, .queueFull, .sequenceRunning, .inputsActive][k]? = some a.result →
        s.itemBytes (.answer a) = messageBytes 3 a.dest a.tag (a.kind :: BitVec.ofNat 8 k :: a.content)) ∧
      (∀ (k : Nat) (b : Beacon), [Seq.quiet, .preAlert, .alarm1, .confirmed, .preDischarge, .discharge, .soak, .resetWait][k]? = some b.fire →
        s.itemBytes (.beacon b) = messageBytes 1 17 0 ([if b.configured then 1 else 0, BitVec.ofNat 8 k, if b.inBand then 1 else 0] ++ toBytes 2 b.registerCount ++
          [if b.dockBusy then 1 else 0, if b.excursionLatch then 1 else 0])) ∧
      (∀ m : PeerOut, ∃ tag, s.itemBytes (.peer m) = messageBytes
        (match m.body with | .offer .. => 5 | .take .. => 6 | .decline .. => 7 | .withdraw .. => 8 | .arrived .. => 9)
        m.dest tag m.body.bytes) ∧
      (∀ (id : Ident) (n : Nat) (hold exposure : Option Nat), PeerBody.bytes (.offer id n hold exposure) =
        id ++ BitVec.ofNat 8 n :: BitVec.ofNat 8 ((if hold.isSome then 1 else 0) + (if exposure.isSome then 2 else 0)) ::
          (toBytes 2 (hold.getD 0) ++ toBytes 3 (exposure.getD 0))) ∧
      (∀ (id : Ident) (n : Nat) (body : PeerBody), body = .take id n ∨ body = .withdraw id n ∨ body = .arrived id n →
        body.bytes = id ++ [BitVec.ofNat 8 n]) ∧
      (∀ (id : Ident) (n k : Nat) (reason : DeclineReason),
        [DeclineReason.malformed, .zoneAlarm, .duplicate, .registerFull, .tableFull, .busy][k]? = some reason →
        PeerBody.bytes (.decline id n reason) = id ++ [BitVec.ofNat 8 n, BitVec.ofNat 8 k]) ∧
      (∀ (kind : Nat) (body : List Byte), linkFrame kind body = BitVec.ofNat 8 kind :: (toBytes 2 body.length ++ body) ++
        toBytes 2 (crc (BitVec.ofNat 8 kind :: (toBytes 2 body.length ++ body))).toNat) ∧
      DockFrame.wake.bytes = linkFrame 1 [] ∧ (DockFrame.poll .none).bytes = linkFrame 2 [0, 0] ∧
      (DockFrame.poll .accepted).bytes = linkFrame 2 [1, 0] ∧ (DockFrame.poll .held).bytes = linkFrame 2 [3, 0] ∧
      (∀ (k : Nat) (reason : RejectReason),
        [RejectReason.notOnManifest, .malformed, .duplicate, .registerFull, .listFull][k]? = some reason →
        (DockFrame.poll (.rejected reason)).bytes = linkFrame 2 [2, BitVec.ofNat 8 (k + 1)]) ∧
      (∀ count d, (DockFrame.digest count d).bytes = linkFrame 3 (BitVec.ofNat 8 count :: toBytes 2 d.toNat)) ∧
      DockFrame.commit.bytes = linkFrame 4 [] ∧
      (∀ (k : Nat) (outcome : SessionOutcome),
        [SessionOutcome.committed, .handoverUnconfirmed, .noCase, .noIdentity, .denied, .authTimeout, .idleTimeout, .nothingLoaded,
          .digestMismatch, .cancelled, .linkFault, .fire, .caseRemoved][k]? = some outcome →
        (DockFrame.abort outcome).bytes = linkFrame 5 [BitVec.ofNat 8 (k + 1)]) ∧
      CaseFrame.awake.bytes = linkFrame 17 [] ∧ CaseFrame.nothing.bytes = linkFrame 20 [] ∧
      (∀ id, (CaseFrame.scan id).bytes = linkFrame 19 id) ∧
      (∀ count d, (CaseFrame.echo count d).bytes = linkFrame 21 (count :: toBytes 2 d.toNat)) ∧
      (∀ count, (CaseFrame.done count).bytes = linkFrame 22 (toBytes 2 count.toNat)) ∧
      ∀ caseId badge count intent intervals, (CaseFrame.identity caseId badge count intent intervals).bytes =
        linkFrame 18 (toBytes 4 caseId.toNat ++ toBytes 3 badge.toNat ++ toBytes 2 count.toNat ++
          [intent, BitVec.ofNat 8 intervals.length] ++
          intervals.flatMap fun i => i.minutes :: (toBytes 2 i.rh.toNat ++ toBytes 2 i.temperature.toNat))

/-- O59 (R13, R42, R76, R105, R107, R108, R125, R133, R134, R144, R163, R169, R172, R185): what every step keeps of the outputs and the queues: the two
climate outputs never on together and OFF while anything forces, the release active in DISCHARGE alone, sounder and damper by their tables, each timer
in its own state, each queue within its depth, each counter within its range: the zone clock, the account, the accumulator from 0 to 59, the fault
count from 0 to 2, the session and transfer numbers from 0 to 255, the own cycle number from 0 to 9, the missed-superframe counts from 0 to 3, and
the notices' counts. -/
def Obligations.StepKeepsOutputsAndBounds : Prop :=
  (∀ s t : State, s.climateHeld = true → step s = .next t → t.climateHeld = true) ∧
    (∀ s t : State, s.fireHeld = true → step s = .next t → t.fireHeld = true) ∧
    (∀ s t : State, s.queuesBounded = true → step s = .next t → t.queuesBounded = true) ∧
    ∀ s t : State, s.countersHeld = true → step s = .next t → t.countersHeld = true

/-- O60 (R6, R7, R10, R11, R25, R26, R34, R58, R71, R90, R138, R143, R155): the custody invariant, and with it the capacity, kept by every step: records
and transfer entries name each other, manifests and the records in RESERVED and LOADING name each other, the scan list names the records in movement, no
identifier twice and at most 32 of them, and no movement stands in a confirmed fire. The remaining hold of CONDITIONING, the prior hold of TRANSFERRING
and the advised hold of SUSPECT lie from 1 to the ceiling; the carried hold of INBOUND is bounded below alone, at 1, since only the SHELVE that uses it
lowers it to the ceiling (R158). That the register and the transfer table are kept sorted by identifier, which the invariant holds as well, is the
model's form of them (log 16). -/
def Obligations.StepKeepsCustody : Prop :=
  (∀ s t : State, s.custodyHeld = true → step s = .next t → t.custodyHeld = true) ∧
    ∀ s t : State, s.custodyHeld = true → s.occupancy ≤ 1024 → step s = .next t → t.occupancy ≤ 1024

end
end

