-- ==== Sys2Proof/Laws/State.lean ====
section
/-! SUPPORT. One lemma per field per update of the state, so that no later proof unfolds a record update. -/

namespace Sys2Proof.Machine

@[simp] theorem State.withPins_pins (s : State) (b : Pins) : (s.withPins b).pins = b := rfl
@[simp] theorem State.withPins_request (s : State) (b : Pins) : (s.withPins b).request = s.request := rfl
@[simp] theorem State.withPins_custody (s : State) (b : Pins) : (s.withPins b).custody = s.custody := rfl
@[simp] theorem State.withPins_dock (s : State) (b : Pins) : (s.withPins b).dock = s.dock := rfl
@[simp] theorem State.withPins_conditioning (s : State) (b : Pins) : (s.withPins b).conditioning = s.conditioning := rfl
@[simp] theorem State.withPins_climate (s : State) (b : Pins) : (s.withPins b).climate = s.climate := rfl
@[simp] theorem State.withPins_fire (s : State) (b : Pins) : (s.withPins b).fire = s.fire := rfl
@[simp] theorem State.withPins_transfer (s : State) (b : Pins) : (s.withPins b).transfer = s.transfer := rfl
@[simp] theorem State.withPins_line (s : State) (b : Pins) : (s.withPins b).line = s.line := rfl
@[simp] theorem State.withPins_notices (s : State) (b : Pins) : (s.withPins b).notices = s.notices := rfl
@[simp] theorem State.withPins_now (s : State) (b : Pins) : (s.withPins b).now = s.now := rfl
@[simp] theorem State.withPins_free (s : State) (b : Pins) : (s.withPins b).free = s.free := rfl
@[simp] theorem State.withPins_pending (s : State) (b : Pins) : (s.withPins b).pending = s.pending := rfl

@[simp] theorem State.withRequest_pins (s : State) (b : RequestUnit) : (s.withRequest b).pins = s.pins := rfl
@[simp] theorem State.withRequest_request (s : State) (b : RequestUnit) : (s.withRequest b).request = b := rfl
@[simp] theorem State.withRequest_custody (s : State) (b : RequestUnit) : (s.withRequest b).custody = s.custody := rfl
@[simp] theorem State.withRequest_dock (s : State) (b : RequestUnit) : (s.withRequest b).dock = s.dock := rfl
@[simp] theorem State.withRequest_conditioning (s : State) (b : RequestUnit) : (s.withRequest b).conditioning = s.conditioning := rfl
@[simp] theorem State.withRequest_climate (s : State) (b : RequestUnit) : (s.withRequest b).climate = s.climate := rfl
@[simp] theorem State.withRequest_fire (s : State) (b : RequestUnit) : (s.withRequest b).fire = s.fire := rfl
@[simp] theorem State.withRequest_transfer (s : State) (b : RequestUnit) : (s.withRequest b).transfer = s.transfer := rfl
@[simp] theorem State.withRequest_line (s : State) (b : RequestUnit) : (s.withRequest b).line = s.line := rfl
@[simp] theorem State.withRequest_notices (s : State) (b : RequestUnit) : (s.withRequest b).notices = s.notices := rfl
@[simp] theorem State.withRequest_now (s : State) (b : RequestUnit) : (s.withRequest b).now = s.now := rfl
@[simp] theorem State.withRequest_free (s : State) (b : RequestUnit) : (s.withRequest b).free = s.free := rfl
@[simp] theorem State.withRequest_pending (s : State) (b : RequestUnit) : (s.withRequest b).pending = s.pending := rfl

@[simp] theorem State.withCustody_pins (s : State) (b : CustodyUnit) : (s.withCustody b).pins = s.pins := rfl
@[simp] theorem State.withCustody_request (s : State) (b : CustodyUnit) : (s.withCustody b).request = s.request := rfl
@[simp] theorem State.withCustody_custody (s : State) (b : CustodyUnit) : (s.withCustody b).custody = b := rfl
@[simp] theorem State.withCustody_dock (s : State) (b : CustodyUnit) : (s.withCustody b).dock = s.dock := rfl
@[simp] theorem State.withCustody_conditioning (s : State) (b : CustodyUnit) : (s.withCustody b).conditioning = s.conditioning := rfl
@[simp] theorem State.withCustody_climate (s : State) (b : CustodyUnit) : (s.withCustody b).climate = s.climate := rfl
@[simp] theorem State.withCustody_fire (s : State) (b : CustodyUnit) : (s.withCustody b).fire = s.fire := rfl
@[simp] theorem State.withCustody_transfer (s : State) (b : CustodyUnit) : (s.withCustody b).transfer = s.transfer := rfl
@[simp] theorem State.withCustody_line (s : State) (b : CustodyUnit) : (s.withCustody b).line = s.line := rfl
@[simp] theorem State.withCustody_notices (s : State) (b : CustodyUnit) : (s.withCustody b).notices = s.notices := rfl
@[simp] theorem State.withCustody_now (s : State) (b : CustodyUnit) : (s.withCustody b).now = s.now := rfl
@[simp] theorem State.withCustody_free (s : State) (b : CustodyUnit) : (s.withCustody b).free = s.free := rfl
@[simp] theorem State.withCustody_pending (s : State) (b : CustodyUnit) : (s.withCustody b).pending = s.pending := rfl

@[simp] theorem State.withDock_pins (s : State) (b : DockUnit) : (s.withDock b).pins = s.pins := rfl
@[simp] theorem State.withDock_request (s : State) (b : DockUnit) : (s.withDock b).request = s.request := rfl
@[simp] theorem State.withDock_custody (s : State) (b : DockUnit) : (s.withDock b).custody = s.custody := rfl
@[simp] theorem State.withDock_dock (s : State) (b : DockUnit) : (s.withDock b).dock = b := rfl
@[simp] theorem State.withDock_conditioning (s : State) (b : DockUnit) : (s.withDock b).conditioning = s.conditioning := rfl
@[simp] theorem State.withDock_climate (s : State) (b : DockUnit) : (s.withDock b).climate = s.climate := rfl
@[simp] theorem State.withDock_fire (s : State) (b : DockUnit) : (s.withDock b).fire = s.fire := rfl
@[simp] theorem State.withDock_transfer (s : State) (b : DockUnit) : (s.withDock b).transfer = s.transfer := rfl
@[simp] theorem State.withDock_line (s : State) (b : DockUnit) : (s.withDock b).line = s.line := rfl
@[simp] theorem State.withDock_notices (s : State) (b : DockUnit) : (s.withDock b).notices = s.notices := rfl
@[simp] theorem State.withDock_now (s : State) (b : DockUnit) : (s.withDock b).now = s.now := rfl
@[simp] theorem State.withDock_free (s : State) (b : DockUnit) : (s.withDock b).free = s.free := rfl
@[simp] theorem State.withDock_pending (s : State) (b : DockUnit) : (s.withDock b).pending = s.pending := rfl

@[simp] theorem State.withConditioning_pins (s : State) (b : ConditioningUnit) : (s.withConditioning b).pins = s.pins := rfl
@[simp] theorem State.withConditioning_request (s : State) (b : ConditioningUnit) : (s.withConditioning b).request = s.request := rfl
@[simp] theorem State.withConditioning_custody (s : State) (b : ConditioningUnit) : (s.withConditioning b).custody = s.custody := rfl
@[simp] theorem State.withConditioning_dock (s : State) (b : ConditioningUnit) : (s.withConditioning b).dock = s.dock := rfl
@[simp] theorem State.withConditioning_conditioning (s : State) (b : ConditioningUnit) : (s.withConditioning b).conditioning = b := rfl
@[simp] theorem State.withConditioning_climate (s : State) (b : ConditioningUnit) : (s.withConditioning b).climate = s.climate := rfl
@[simp] theorem State.withConditioning_fire (s : State) (b : ConditioningUnit) : (s.withConditioning b).fire = s.fire := rfl
@[simp] theorem State.withConditioning_transfer (s : State) (b : ConditioningUnit) : (s.withConditioning b).transfer = s.transfer := rfl
@[simp] theorem State.withConditioning_line (s : State) (b : ConditioningUnit) : (s.withConditioning b).line = s.line := rfl
@[simp] theorem State.withConditioning_notices (s : State) (b : ConditioningUnit) : (s.withConditioning b).notices = s.notices := rfl
@[simp] theorem State.withConditioning_now (s : State) (b : ConditioningUnit) : (s.withConditioning b).now = s.now := rfl
@[simp] theorem State.withConditioning_free (s : State) (b : ConditioningUnit) : (s.withConditioning b).free = s.free := rfl
@[simp] theorem State.withConditioning_pending (s : State) (b : ConditioningUnit) : (s.withConditioning b).pending = s.pending := rfl

@[simp] theorem State.withClimate_pins (s : State) (b : ClimateUnit) : (s.withClimate b).pins = s.pins := rfl
@[simp] theorem State.withClimate_request (s : State) (b : ClimateUnit) : (s.withClimate b).request = s.request := rfl
@[simp] theorem State.withClimate_custody (s : State) (b : ClimateUnit) : (s.withClimate b).custody = s.custody := rfl
@[simp] theorem State.withClimate_dock (s : State) (b : ClimateUnit) : (s.withClimate b).dock = s.dock := rfl
@[simp] theorem State.withClimate_conditioning (s : State) (b : ClimateUnit) : (s.withClimate b).conditioning = s.conditioning := rfl
@[simp] theorem State.withClimate_climate (s : State) (b : ClimateUnit) : (s.withClimate b).climate = b := rfl
@[simp] theorem State.withClimate_fire (s : State) (b : ClimateUnit) : (s.withClimate b).fire = s.fire := rfl
@[simp] theorem State.withClimate_transfer (s : State) (b : ClimateUnit) : (s.withClimate b).transfer = s.transfer := rfl
@[simp] theorem State.withClimate_line (s : State) (b : ClimateUnit) : (s.withClimate b).line = s.line := rfl
@[simp] theorem State.withClimate_notices (s : State) (b : ClimateUnit) : (s.withClimate b).notices = s.notices := rfl
@[simp] theorem State.withClimate_now (s : State) (b : ClimateUnit) : (s.withClimate b).now = s.now := rfl
@[simp] theorem State.withClimate_free (s : State) (b : ClimateUnit) : (s.withClimate b).free = s.free := rfl
@[simp] theorem State.withClimate_pending (s : State) (b : ClimateUnit) : (s.withClimate b).pending = s.pending := rfl

@[simp] theorem State.withFire_pins (s : State) (b : FireUnit) : (s.withFire b).pins = s.pins := rfl
@[simp] theorem State.withFire_request (s : State) (b : FireUnit) : (s.withFire b).request = s.request := rfl
@[simp] theorem State.withFire_custody (s : State) (b : FireUnit) : (s.withFire b).custody = s.custody := rfl
@[simp] theorem State.withFire_dock (s : State) (b : FireUnit) : (s.withFire b).dock = s.dock := rfl
@[simp] theorem State.withFire_conditioning (s : State) (b : FireUnit) : (s.withFire b).conditioning = s.conditioning := rfl
@[simp] theorem State.withFire_climate (s : State) (b : FireUnit) : (s.withFire b).climate = s.climate := rfl
@[simp] theorem State.withFire_fire (s : State) (b : FireUnit) : (s.withFire b).fire = b := rfl
@[simp] theorem State.withFire_transfer (s : State) (b : FireUnit) : (s.withFire b).transfer = s.transfer := rfl
@[simp] theorem State.withFire_line (s : State) (b : FireUnit) : (s.withFire b).line = s.line := rfl
@[simp] theorem State.withFire_notices (s : State) (b : FireUnit) : (s.withFire b).notices = s.notices := rfl
@[simp] theorem State.withFire_now (s : State) (b : FireUnit) : (s.withFire b).now = s.now := rfl
@[simp] theorem State.withFire_free (s : State) (b : FireUnit) : (s.withFire b).free = s.free := rfl
@[simp] theorem State.withFire_pending (s : State) (b : FireUnit) : (s.withFire b).pending = s.pending := rfl

@[simp] theorem State.withTransfer_pins (s : State) (b : TransferUnit) : (s.withTransfer b).pins = s.pins := rfl
@[simp] theorem State.withTransfer_request (s : State) (b : TransferUnit) : (s.withTransfer b).request = s.request := rfl
@[simp] theorem State.withTransfer_custody (s : State) (b : TransferUnit) : (s.withTransfer b).custody = s.custody := rfl
@[simp] theorem State.withTransfer_dock (s : State) (b : TransferUnit) : (s.withTransfer b).dock = s.dock := rfl
@[simp] theorem State.withTransfer_conditioning (s : State) (b : TransferUnit) : (s.withTransfer b).conditioning = s.conditioning := rfl
@[simp] theorem State.withTransfer_climate (s : State) (b : TransferUnit) : (s.withTransfer b).climate = s.climate := rfl
@[simp] theorem State.withTransfer_fire (s : State) (b : TransferUnit) : (s.withTransfer b).fire = s.fire := rfl
@[simp] theorem State.withTransfer_transfer (s : State) (b : TransferUnit) : (s.withTransfer b).transfer = b := rfl
@[simp] theorem State.withTransfer_line (s : State) (b : TransferUnit) : (s.withTransfer b).line = s.line := rfl
@[simp] theorem State.withTransfer_notices (s : State) (b : TransferUnit) : (s.withTransfer b).notices = s.notices := rfl
@[simp] theorem State.withTransfer_now (s : State) (b : TransferUnit) : (s.withTransfer b).now = s.now := rfl
@[simp] theorem State.withTransfer_free (s : State) (b : TransferUnit) : (s.withTransfer b).free = s.free := rfl
@[simp] theorem State.withTransfer_pending (s : State) (b : TransferUnit) : (s.withTransfer b).pending = s.pending := rfl

@[simp] theorem State.withLine_pins (s : State) (b : LineUnit) : (s.withLine b).pins = s.pins := rfl
@[simp] theorem State.withLine_request (s : State) (b : LineUnit) : (s.withLine b).request = s.request := rfl
@[simp] theorem State.withLine_custody (s : State) (b : LineUnit) : (s.withLine b).custody = s.custody := rfl
@[simp] theorem State.withLine_dock (s : State) (b : LineUnit) : (s.withLine b).dock = s.dock := rfl
@[simp] theorem State.withLine_conditioning (s : State) (b : LineUnit) : (s.withLine b).conditioning = s.conditioning := rfl
@[simp] theorem State.withLine_climate (s : State) (b : LineUnit) : (s.withLine b).climate = s.climate := rfl
@[simp] theorem State.withLine_fire (s : State) (b : LineUnit) : (s.withLine b).fire = s.fire := rfl
@[simp] theorem State.withLine_transfer (s : State) (b : LineUnit) : (s.withLine b).transfer = s.transfer := rfl
@[simp] theorem State.withLine_line (s : State) (b : LineUnit) : (s.withLine b).line = b := rfl
@[simp] theorem State.withLine_notices (s : State) (b : LineUnit) : (s.withLine b).notices = s.notices := rfl
@[simp] theorem State.withLine_now (s : State) (b : LineUnit) : (s.withLine b).now = s.now := rfl
@[simp] theorem State.withLine_free (s : State) (b : LineUnit) : (s.withLine b).free = s.free := rfl
@[simp] theorem State.withLine_pending (s : State) (b : LineUnit) : (s.withLine b).pending = s.pending := rfl

@[simp] theorem State.withNotices_pins (s : State) (b : NoticeUnit) : (s.withNotices b).pins = s.pins := rfl
@[simp] theorem State.withNotices_request (s : State) (b : NoticeUnit) : (s.withNotices b).request = s.request := rfl
@[simp] theorem State.withNotices_custody (s : State) (b : NoticeUnit) : (s.withNotices b).custody = s.custody := rfl
@[simp] theorem State.withNotices_dock (s : State) (b : NoticeUnit) : (s.withNotices b).dock = s.dock := rfl
@[simp] theorem State.withNotices_conditioning (s : State) (b : NoticeUnit) : (s.withNotices b).conditioning = s.conditioning := rfl
@[simp] theorem State.withNotices_climate (s : State) (b : NoticeUnit) : (s.withNotices b).climate = s.climate := rfl
@[simp] theorem State.withNotices_fire (s : State) (b : NoticeUnit) : (s.withNotices b).fire = s.fire := rfl
@[simp] theorem State.withNotices_transfer (s : State) (b : NoticeUnit) : (s.withNotices b).transfer = s.transfer := rfl
@[simp] theorem State.withNotices_line (s : State) (b : NoticeUnit) : (s.withNotices b).line = s.line := rfl
@[simp] theorem State.withNotices_notices (s : State) (b : NoticeUnit) : (s.withNotices b).notices = b := rfl
@[simp] theorem State.withNotices_now (s : State) (b : NoticeUnit) : (s.withNotices b).now = s.now := rfl
@[simp] theorem State.withNotices_free (s : State) (b : NoticeUnit) : (s.withNotices b).free = s.free := rfl
@[simp] theorem State.withNotices_pending (s : State) (b : NoticeUnit) : (s.withNotices b).pending = s.pending := rfl

@[simp] theorem State.withNow_pins (s : State) (b : Nat) : (s.withNow b).pins = s.pins := rfl
@[simp] theorem State.withNow_request (s : State) (b : Nat) : (s.withNow b).request = s.request := rfl
@[simp] theorem State.withNow_custody (s : State) (b : Nat) : (s.withNow b).custody = s.custody := rfl
@[simp] theorem State.withNow_dock (s : State) (b : Nat) : (s.withNow b).dock = s.dock := rfl
@[simp] theorem State.withNow_conditioning (s : State) (b : Nat) : (s.withNow b).conditioning = s.conditioning := rfl
@[simp] theorem State.withNow_climate (s : State) (b : Nat) : (s.withNow b).climate = s.climate := rfl
@[simp] theorem State.withNow_fire (s : State) (b : Nat) : (s.withNow b).fire = s.fire := rfl
@[simp] theorem State.withNow_transfer (s : State) (b : Nat) : (s.withNow b).transfer = s.transfer := rfl
@[simp] theorem State.withNow_line (s : State) (b : Nat) : (s.withNow b).line = s.line := rfl
@[simp] theorem State.withNow_notices (s : State) (b : Nat) : (s.withNow b).notices = s.notices := rfl
@[simp] theorem State.withNow_now (s : State) (b : Nat) : (s.withNow b).now = b := rfl
@[simp] theorem State.withNow_free (s : State) (b : Nat) : (s.withNow b).free = s.free := rfl
@[simp] theorem State.withNow_pending (s : State) (b : Nat) : (s.withNow b).pending = s.pending := rfl

@[simp] theorem State.withFree_pins (s : State) (b : Nat) : (s.withFree b).pins = s.pins := rfl
@[simp] theorem State.withFree_request (s : State) (b : Nat) : (s.withFree b).request = s.request := rfl
@[simp] theorem State.withFree_custody (s : State) (b : Nat) : (s.withFree b).custody = s.custody := rfl
@[simp] theorem State.withFree_dock (s : State) (b : Nat) : (s.withFree b).dock = s.dock := rfl
@[simp] theorem State.withFree_conditioning (s : State) (b : Nat) : (s.withFree b).conditioning = s.conditioning := rfl
@[simp] theorem State.withFree_climate (s : State) (b : Nat) : (s.withFree b).climate = s.climate := rfl
@[simp] theorem State.withFree_fire (s : State) (b : Nat) : (s.withFree b).fire = s.fire := rfl
@[simp] theorem State.withFree_transfer (s : State) (b : Nat) : (s.withFree b).transfer = s.transfer := rfl
@[simp] theorem State.withFree_line (s : State) (b : Nat) : (s.withFree b).line = s.line := rfl
@[simp] theorem State.withFree_notices (s : State) (b : Nat) : (s.withFree b).notices = s.notices := rfl
@[simp] theorem State.withFree_now (s : State) (b : Nat) : (s.withFree b).now = s.now := rfl
@[simp] theorem State.withFree_free (s : State) (b : Nat) : (s.withFree b).free = b := rfl
@[simp] theorem State.withFree_pending (s : State) (b : Nat) : (s.withFree b).pending = s.pending := rfl

@[simp] theorem State.withPending_pins (s : State) (b : List Instr) : (s.withPending b).pins = s.pins := rfl
@[simp] theorem State.withPending_request (s : State) (b : List Instr) : (s.withPending b).request = s.request := rfl
@[simp] theorem State.withPending_custody (s : State) (b : List Instr) : (s.withPending b).custody = s.custody := rfl
@[simp] theorem State.withPending_dock (s : State) (b : List Instr) : (s.withPending b).dock = s.dock := rfl
@[simp] theorem State.withPending_conditioning (s : State) (b : List Instr) : (s.withPending b).conditioning = s.conditioning := rfl
@[simp] theorem State.withPending_climate (s : State) (b : List Instr) : (s.withPending b).climate = s.climate := rfl
@[simp] theorem State.withPending_fire (s : State) (b : List Instr) : (s.withPending b).fire = s.fire := rfl
@[simp] theorem State.withPending_transfer (s : State) (b : List Instr) : (s.withPending b).transfer = s.transfer := rfl
@[simp] theorem State.withPending_line (s : State) (b : List Instr) : (s.withPending b).line = s.line := rfl
@[simp] theorem State.withPending_notices (s : State) (b : List Instr) : (s.withPending b).notices = s.notices := rfl
@[simp] theorem State.withPending_now (s : State) (b : List Instr) : (s.withPending b).now = s.now := rfl
@[simp] theorem State.withPending_free (s : State) (b : List Instr) : (s.withPending b).free = s.free := rfl
@[simp] theorem State.withPending_pending (s : State) (b : List Instr) : (s.withPending b).pending = b := rfl

end Sys2Proof.Machine
end

