-- ==== Sys2Proof/Laws/Ops.lean ====
section
/-! SUPPORT. The frames of the shared operations: the fields each leaves as they are. -/

namespace Sys2Proof.Machine

@[simp] theorem State.setRegister_pins (s : State) (l : List Record) : (s.setRegister l).pins = s.pins := rfl
@[simp] theorem State.setRegister_request (s : State) (l : List Record) : (s.setRegister l).request = s.request := rfl
@[simp] theorem State.setRegister_dock (s : State) (l : List Record) : (s.setRegister l).dock = s.dock := rfl
@[simp] theorem State.setRegister_conditioning (s : State) (l : List Record) : (s.setRegister l).conditioning = s.conditioning := rfl
@[simp] theorem State.setRegister_climate (s : State) (l : List Record) : (s.setRegister l).climate = s.climate := rfl
@[simp] theorem State.setRegister_fire (s : State) (l : List Record) : (s.setRegister l).fire = s.fire := rfl
@[simp] theorem State.setRegister_transfer (s : State) (l : List Record) : (s.setRegister l).transfer = s.transfer := rfl
@[simp] theorem State.setRegister_line (s : State) (l : List Record) : (s.setRegister l).line = s.line := rfl
@[simp] theorem State.setRegister_notices (s : State) (l : List Record) : (s.setRegister l).notices = s.notices := rfl
@[simp] theorem State.setRegister_now (s : State) (l : List Record) : (s.setRegister l).now = s.now := rfl
@[simp] theorem State.setRegister_free (s : State) (l : List Record) : (s.setRegister l).free = s.free := rfl
@[simp] theorem State.setRegister_pending (s : State) (l : List Record) : (s.setRegister l).pending = s.pending := rfl

@[simp] theorem State.setManifests_pins (s : State) (l : List (Option Manifest)) : (s.setManifests l).pins = s.pins := rfl
@[simp] theorem State.setManifests_request (s : State) (l : List (Option Manifest)) : (s.setManifests l).request = s.request := rfl
@[simp] theorem State.setManifests_dock (s : State) (l : List (Option Manifest)) : (s.setManifests l).dock = s.dock := rfl
@[simp] theorem State.setManifests_conditioning (s : State) (l : List (Option Manifest)) : (s.setManifests l).conditioning = s.conditioning := rfl
@[simp] theorem State.setManifests_climate (s : State) (l : List (Option Manifest)) : (s.setManifests l).climate = s.climate := rfl
@[simp] theorem State.setManifests_fire (s : State) (l : List (Option Manifest)) : (s.setManifests l).fire = s.fire := rfl
@[simp] theorem State.setManifests_transfer (s : State) (l : List (Option Manifest)) : (s.setManifests l).transfer = s.transfer := rfl
@[simp] theorem State.setManifests_line (s : State) (l : List (Option Manifest)) : (s.setManifests l).line = s.line := rfl
@[simp] theorem State.setManifests_notices (s : State) (l : List (Option Manifest)) : (s.setManifests l).notices = s.notices := rfl
@[simp] theorem State.setManifests_now (s : State) (l : List (Option Manifest)) : (s.setManifests l).now = s.now := rfl
@[simp] theorem State.setManifests_free (s : State) (l : List (Option Manifest)) : (s.setManifests l).free = s.free := rfl
@[simp] theorem State.setManifests_pending (s : State) (l : List (Option Manifest)) : (s.setManifests l).pending = s.pending := rfl

@[simp] theorem State.putRecord_pins (s : State) (r : Record) : (s.putRecord r).pins = s.pins := rfl
@[simp] theorem State.putRecord_request (s : State) (r : Record) : (s.putRecord r).request = s.request := rfl
@[simp] theorem State.putRecord_dock (s : State) (r : Record) : (s.putRecord r).dock = s.dock := rfl
@[simp] theorem State.putRecord_conditioning (s : State) (r : Record) : (s.putRecord r).conditioning = s.conditioning := rfl
@[simp] theorem State.putRecord_climate (s : State) (r : Record) : (s.putRecord r).climate = s.climate := rfl
@[simp] theorem State.putRecord_fire (s : State) (r : Record) : (s.putRecord r).fire = s.fire := rfl
@[simp] theorem State.putRecord_transfer (s : State) (r : Record) : (s.putRecord r).transfer = s.transfer := rfl
@[simp] theorem State.putRecord_line (s : State) (r : Record) : (s.putRecord r).line = s.line := rfl
@[simp] theorem State.putRecord_notices (s : State) (r : Record) : (s.putRecord r).notices = s.notices := rfl
@[simp] theorem State.putRecord_now (s : State) (r : Record) : (s.putRecord r).now = s.now := rfl
@[simp] theorem State.putRecord_free (s : State) (r : Record) : (s.putRecord r).free = s.free := rfl
@[simp] theorem State.putRecord_pending (s : State) (r : Record) : (s.putRecord r).pending = s.pending := rfl

@[simp] theorem State.eraseRecord_pins (s : State) (id : Ident) : (s.eraseRecord id).pins = s.pins := rfl
@[simp] theorem State.eraseRecord_request (s : State) (id : Ident) : (s.eraseRecord id).request = s.request := rfl
@[simp] theorem State.eraseRecord_dock (s : State) (id : Ident) : (s.eraseRecord id).dock = s.dock := rfl
@[simp] theorem State.eraseRecord_conditioning (s : State) (id : Ident) : (s.eraseRecord id).conditioning = s.conditioning := rfl
@[simp] theorem State.eraseRecord_climate (s : State) (id : Ident) : (s.eraseRecord id).climate = s.climate := rfl
@[simp] theorem State.eraseRecord_fire (s : State) (id : Ident) : (s.eraseRecord id).fire = s.fire := rfl
@[simp] theorem State.eraseRecord_transfer (s : State) (id : Ident) : (s.eraseRecord id).transfer = s.transfer := rfl
@[simp] theorem State.eraseRecord_line (s : State) (id : Ident) : (s.eraseRecord id).line = s.line := rfl
@[simp] theorem State.eraseRecord_notices (s : State) (id : Ident) : (s.eraseRecord id).notices = s.notices := rfl
@[simp] theorem State.eraseRecord_now (s : State) (id : Ident) : (s.eraseRecord id).now = s.now := rfl
@[simp] theorem State.eraseRecord_free (s : State) (id : Ident) : (s.eraseRecord id).free = s.free := rfl
@[simp] theorem State.eraseRecord_pending (s : State) (id : Ident) : (s.eraseRecord id).pending = s.pending := rfl

@[simp] theorem State.setManifest_pins (s : State) (n : Nat) (m : Option Manifest) : (s.setManifest n m).pins = s.pins := rfl
@[simp] theorem State.setManifest_request (s : State) (n : Nat) (m : Option Manifest) : (s.setManifest n m).request = s.request := rfl
@[simp] theorem State.setManifest_dock (s : State) (n : Nat) (m : Option Manifest) : (s.setManifest n m).dock = s.dock := rfl
@[simp] theorem State.setManifest_conditioning (s : State) (n : Nat) (m : Option Manifest) : (s.setManifest n m).conditioning = s.conditioning := rfl
@[simp] theorem State.setManifest_climate (s : State) (n : Nat) (m : Option Manifest) : (s.setManifest n m).climate = s.climate := rfl
@[simp] theorem State.setManifest_fire (s : State) (n : Nat) (m : Option Manifest) : (s.setManifest n m).fire = s.fire := rfl
@[simp] theorem State.setManifest_transfer (s : State) (n : Nat) (m : Option Manifest) : (s.setManifest n m).transfer = s.transfer := rfl
@[simp] theorem State.setManifest_line (s : State) (n : Nat) (m : Option Manifest) : (s.setManifest n m).line = s.line := rfl
@[simp] theorem State.setManifest_notices (s : State) (n : Nat) (m : Option Manifest) : (s.setManifest n m).notices = s.notices := rfl
@[simp] theorem State.setManifest_now (s : State) (n : Nat) (m : Option Manifest) : (s.setManifest n m).now = s.now := rfl
@[simp] theorem State.setManifest_free (s : State) (n : Nat) (m : Option Manifest) : (s.setManifest n m).free = s.free := rfl
@[simp] theorem State.setManifest_pending (s : State) (n : Nat) (m : Option Manifest) : (s.setManifest n m).pending = s.pending := rfl

@[simp] theorem State.freeManifest_pins (s : State) (n : Nat) : (s.freeManifest n).pins = s.pins := rfl
@[simp] theorem State.freeManifest_request (s : State) (n : Nat) : (s.freeManifest n).request = s.request := rfl
@[simp] theorem State.freeManifest_dock (s : State) (n : Nat) : (s.freeManifest n).dock = s.dock := rfl
@[simp] theorem State.freeManifest_conditioning (s : State) (n : Nat) : (s.freeManifest n).conditioning = s.conditioning := rfl
@[simp] theorem State.freeManifest_climate (s : State) (n : Nat) : (s.freeManifest n).climate = s.climate := rfl
@[simp] theorem State.freeManifest_fire (s : State) (n : Nat) : (s.freeManifest n).fire = s.fire := rfl
@[simp] theorem State.freeManifest_transfer (s : State) (n : Nat) : (s.freeManifest n).transfer = s.transfer := rfl
@[simp] theorem State.freeManifest_line (s : State) (n : Nat) : (s.freeManifest n).line = s.line := rfl
@[simp] theorem State.freeManifest_notices (s : State) (n : Nat) : (s.freeManifest n).notices = s.notices := rfl
@[simp] theorem State.freeManifest_now (s : State) (n : Nat) : (s.freeManifest n).now = s.now := rfl
@[simp] theorem State.freeManifest_free (s : State) (n : Nat) : (s.freeManifest n).free = s.free := rfl
@[simp] theorem State.freeManifest_pending (s : State) (n : Nat) : (s.freeManifest n).pending = s.pending := rfl

@[simp] theorem State.setEntries_pins (s : State) (l : List TransferEntry) : (s.setEntries l).pins = s.pins := rfl
@[simp] theorem State.setEntries_request (s : State) (l : List TransferEntry) : (s.setEntries l).request = s.request := rfl
@[simp] theorem State.setEntries_custody (s : State) (l : List TransferEntry) : (s.setEntries l).custody = s.custody := rfl
@[simp] theorem State.setEntries_dock (s : State) (l : List TransferEntry) : (s.setEntries l).dock = s.dock := rfl
@[simp] theorem State.setEntries_conditioning (s : State) (l : List TransferEntry) : (s.setEntries l).conditioning = s.conditioning := rfl
@[simp] theorem State.setEntries_climate (s : State) (l : List TransferEntry) : (s.setEntries l).climate = s.climate := rfl
@[simp] theorem State.setEntries_fire (s : State) (l : List TransferEntry) : (s.setEntries l).fire = s.fire := rfl
@[simp] theorem State.setEntries_line (s : State) (l : List TransferEntry) : (s.setEntries l).line = s.line := rfl
@[simp] theorem State.setEntries_notices (s : State) (l : List TransferEntry) : (s.setEntries l).notices = s.notices := rfl
@[simp] theorem State.setEntries_now (s : State) (l : List TransferEntry) : (s.setEntries l).now = s.now := rfl
@[simp] theorem State.setEntries_free (s : State) (l : List TransferEntry) : (s.setEntries l).free = s.free := rfl
@[simp] theorem State.setEntries_pending (s : State) (l : List TransferEntry) : (s.setEntries l).pending = s.pending := rfl

@[simp] theorem State.putEntry_pins (s : State) (e : TransferEntry) : (s.putEntry e).pins = s.pins := rfl
@[simp] theorem State.putEntry_request (s : State) (e : TransferEntry) : (s.putEntry e).request = s.request := rfl
@[simp] theorem State.putEntry_custody (s : State) (e : TransferEntry) : (s.putEntry e).custody = s.custody := rfl
@[simp] theorem State.putEntry_dock (s : State) (e : TransferEntry) : (s.putEntry e).dock = s.dock := rfl
@[simp] theorem State.putEntry_conditioning (s : State) (e : TransferEntry) : (s.putEntry e).conditioning = s.conditioning := rfl
@[simp] theorem State.putEntry_climate (s : State) (e : TransferEntry) : (s.putEntry e).climate = s.climate := rfl
@[simp] theorem State.putEntry_fire (s : State) (e : TransferEntry) : (s.putEntry e).fire = s.fire := rfl
@[simp] theorem State.putEntry_line (s : State) (e : TransferEntry) : (s.putEntry e).line = s.line := rfl
@[simp] theorem State.putEntry_notices (s : State) (e : TransferEntry) : (s.putEntry e).notices = s.notices := rfl
@[simp] theorem State.putEntry_now (s : State) (e : TransferEntry) : (s.putEntry e).now = s.now := rfl
@[simp] theorem State.putEntry_free (s : State) (e : TransferEntry) : (s.putEntry e).free = s.free := rfl
@[simp] theorem State.putEntry_pending (s : State) (e : TransferEntry) : (s.putEntry e).pending = s.pending := rfl

@[simp] theorem State.eraseEntry_pins (s : State) (id : Ident) : (s.eraseEntry id).pins = s.pins := rfl
@[simp] theorem State.eraseEntry_request (s : State) (id : Ident) : (s.eraseEntry id).request = s.request := rfl
@[simp] theorem State.eraseEntry_custody (s : State) (id : Ident) : (s.eraseEntry id).custody = s.custody := rfl
@[simp] theorem State.eraseEntry_dock (s : State) (id : Ident) : (s.eraseEntry id).dock = s.dock := rfl
@[simp] theorem State.eraseEntry_conditioning (s : State) (id : Ident) : (s.eraseEntry id).conditioning = s.conditioning := rfl
@[simp] theorem State.eraseEntry_climate (s : State) (id : Ident) : (s.eraseEntry id).climate = s.climate := rfl
@[simp] theorem State.eraseEntry_fire (s : State) (id : Ident) : (s.eraseEntry id).fire = s.fire := rfl
@[simp] theorem State.eraseEntry_line (s : State) (id : Ident) : (s.eraseEntry id).line = s.line := rfl
@[simp] theorem State.eraseEntry_notices (s : State) (id : Ident) : (s.eraseEntry id).notices = s.notices := rfl
@[simp] theorem State.eraseEntry_now (s : State) (id : Ident) : (s.eraseEntry id).now = s.now := rfl
@[simp] theorem State.eraseEntry_free (s : State) (id : Ident) : (s.eraseEntry id).free = s.free := rfl
@[simp] theorem State.eraseEntry_pending (s : State) (id : Ident) : (s.eraseEntry id).pending = s.pending := rfl

@[simp] theorem State.queueAnswer_pins (s : State) (a : Answer) : (s.queueAnswer a).pins = s.pins := rfl
@[simp] theorem State.queueAnswer_request (s : State) (a : Answer) : (s.queueAnswer a).request = s.request := rfl
@[simp] theorem State.queueAnswer_custody (s : State) (a : Answer) : (s.queueAnswer a).custody = s.custody := rfl
@[simp] theorem State.queueAnswer_dock (s : State) (a : Answer) : (s.queueAnswer a).dock = s.dock := rfl
@[simp] theorem State.queueAnswer_conditioning (s : State) (a : Answer) : (s.queueAnswer a).conditioning = s.conditioning := rfl
@[simp] theorem State.queueAnswer_climate (s : State) (a : Answer) : (s.queueAnswer a).climate = s.climate := rfl
@[simp] theorem State.queueAnswer_fire (s : State) (a : Answer) : (s.queueAnswer a).fire = s.fire := rfl
@[simp] theorem State.queueAnswer_transfer (s : State) (a : Answer) : (s.queueAnswer a).transfer = s.transfer := rfl
@[simp] theorem State.queueAnswer_notices (s : State) (a : Answer) : (s.queueAnswer a).notices = s.notices := rfl
@[simp] theorem State.queueAnswer_now (s : State) (a : Answer) : (s.queueAnswer a).now = s.now := rfl
@[simp] theorem State.queueAnswer_free (s : State) (a : Answer) : (s.queueAnswer a).free = s.free := rfl
@[simp] theorem State.queueAnswer_pending (s : State) (a : Answer) : (s.queueAnswer a).pending = s.pending := rfl

@[simp] theorem State.queuePeer_pins (s : State) (m : PeerOut) : (s.queuePeer m).pins = s.pins := rfl
@[simp] theorem State.queuePeer_request (s : State) (m : PeerOut) : (s.queuePeer m).request = s.request := rfl
@[simp] theorem State.queuePeer_custody (s : State) (m : PeerOut) : (s.queuePeer m).custody = s.custody := rfl
@[simp] theorem State.queuePeer_dock (s : State) (m : PeerOut) : (s.queuePeer m).dock = s.dock := rfl
@[simp] theorem State.queuePeer_conditioning (s : State) (m : PeerOut) : (s.queuePeer m).conditioning = s.conditioning := rfl
@[simp] theorem State.queuePeer_climate (s : State) (m : PeerOut) : (s.queuePeer m).climate = s.climate := rfl
@[simp] theorem State.queuePeer_fire (s : State) (m : PeerOut) : (s.queuePeer m).fire = s.fire := rfl
@[simp] theorem State.queuePeer_transfer (s : State) (m : PeerOut) : (s.queuePeer m).transfer = s.transfer := rfl
@[simp] theorem State.queuePeer_notices (s : State) (m : PeerOut) : (s.queuePeer m).notices = s.notices := rfl
@[simp] theorem State.queuePeer_now (s : State) (m : PeerOut) : (s.queuePeer m).now = s.now := rfl
@[simp] theorem State.queuePeer_free (s : State) (m : PeerOut) : (s.queuePeer m).free = s.free := rfl
@[simp] theorem State.queuePeer_pending (s : State) (m : PeerOut) : (s.queuePeer m).pending = s.pending := rfl

@[simp] theorem State.setNotice_pins (s : State) (n : Nat) (p : Option PendingNotice) : (s.setNotice n p).pins = s.pins := rfl
@[simp] theorem State.setNotice_request (s : State) (n : Nat) (p : Option PendingNotice) : (s.setNotice n p).request = s.request := rfl
@[simp] theorem State.setNotice_custody (s : State) (n : Nat) (p : Option PendingNotice) : (s.setNotice n p).custody = s.custody := rfl
@[simp] theorem State.setNotice_dock (s : State) (n : Nat) (p : Option PendingNotice) : (s.setNotice n p).dock = s.dock := rfl
@[simp] theorem State.setNotice_conditioning (s : State) (n : Nat) (p : Option PendingNotice) : (s.setNotice n p).conditioning = s.conditioning := rfl
@[simp] theorem State.setNotice_climate (s : State) (n : Nat) (p : Option PendingNotice) : (s.setNotice n p).climate = s.climate := rfl
@[simp] theorem State.setNotice_fire (s : State) (n : Nat) (p : Option PendingNotice) : (s.setNotice n p).fire = s.fire := rfl
@[simp] theorem State.setNotice_transfer (s : State) (n : Nat) (p : Option PendingNotice) : (s.setNotice n p).transfer = s.transfer := rfl
@[simp] theorem State.setNotice_line (s : State) (n : Nat) (p : Option PendingNotice) : (s.setNotice n p).line = s.line := rfl
@[simp] theorem State.setNotice_now (s : State) (n : Nat) (p : Option PendingNotice) : (s.setNotice n p).now = s.now := rfl
@[simp] theorem State.setNotice_free (s : State) (n : Nat) (p : Option PendingNotice) : (s.setNotice n p).free = s.free := rfl
@[simp] theorem State.setNotice_pending (s : State) (n : Nat) (p : Option PendingNotice) : (s.setNotice n p).pending = s.pending := rfl

@[simp] theorem State.emit_pins (s : State) (e : Event) : (s.emit e).pins = s.pins := by unfold State.emit; split <;> rfl
@[simp] theorem State.emit_request (s : State) (e : Event) : (s.emit e).request = s.request := by unfold State.emit; split <;> rfl
@[simp] theorem State.emit_custody (s : State) (e : Event) : (s.emit e).custody = s.custody := by unfold State.emit; split <;> rfl
@[simp] theorem State.emit_dock (s : State) (e : Event) : (s.emit e).dock = s.dock := by unfold State.emit; split <;> rfl
@[simp] theorem State.emit_conditioning (s : State) (e : Event) : (s.emit e).conditioning = s.conditioning := by unfold State.emit; split <;> rfl
@[simp] theorem State.emit_climate (s : State) (e : Event) : (s.emit e).climate = s.climate := by unfold State.emit; split <;> rfl
@[simp] theorem State.emit_fire (s : State) (e : Event) : (s.emit e).fire = s.fire := by unfold State.emit; split <;> rfl
@[simp] theorem State.emit_transfer (s : State) (e : Event) : (s.emit e).transfer = s.transfer := by unfold State.emit; split <;> rfl
@[simp] theorem State.emit_line (s : State) (e : Event) : (s.emit e).line = s.line := by unfold State.emit; split <;> rfl
@[simp] theorem State.emit_now (s : State) (e : Event) : (s.emit e).now = s.now := by unfold State.emit; split <;> rfl
@[simp] theorem State.emit_free (s : State) (e : Event) : (s.emit e).free = s.free := by unfold State.emit; split <;> rfl
@[simp] theorem State.emit_pending (s : State) (e : Event) : (s.emit e).pending = s.pending := by unfold State.emit; split <;> rfl

@[simp] theorem State.emitAll_pins (s : State) (l : List Event) : (s.emitAll l).pins = s.pins := by
  induction l generalizing s with
  | nil => rfl
  | cons e l ih => simp only [State.emitAll, List.foldl_cons] at ih ⊢; rw [ih]; simp
@[simp] theorem State.emitAll_request (s : State) (l : List Event) : (s.emitAll l).request = s.request := by
  induction l generalizing s with
  | nil => rfl
  | cons e l ih => simp only [State.emitAll, List.foldl_cons] at ih ⊢; rw [ih]; simp
@[simp] theorem State.emitAll_custody (s : State) (l : List Event) : (s.emitAll l).custody = s.custody := by
  induction l generalizing s with
  | nil => rfl
  | cons e l ih => simp only [State.emitAll, List.foldl_cons] at ih ⊢; rw [ih]; simp
@[simp] theorem State.emitAll_dock (s : State) (l : List Event) : (s.emitAll l).dock = s.dock := by
  induction l generalizing s with
  | nil => rfl
  | cons e l ih => simp only [State.emitAll, List.foldl_cons] at ih ⊢; rw [ih]; simp
@[simp] theorem State.emitAll_conditioning (s : State) (l : List Event) : (s.emitAll l).conditioning = s.conditioning := by
  induction l generalizing s with
  | nil => rfl
  | cons e l ih => simp only [State.emitAll, List.foldl_cons] at ih ⊢; rw [ih]; simp
@[simp] theorem State.emitAll_climate (s : State) (l : List Event) : (s.emitAll l).climate = s.climate := by
  induction l generalizing s with
  | nil => rfl
  | cons e l ih => simp only [State.emitAll, List.foldl_cons] at ih ⊢; rw [ih]; simp
@[simp] theorem State.emitAll_fire (s : State) (l : List Event) : (s.emitAll l).fire = s.fire := by
  induction l generalizing s with
  | nil => rfl
  | cons e l ih => simp only [State.emitAll, List.foldl_cons] at ih ⊢; rw [ih]; simp
@[simp] theorem State.emitAll_transfer (s : State) (l : List Event) : (s.emitAll l).transfer = s.transfer := by
  induction l generalizing s with
  | nil => rfl
  | cons e l ih => simp only [State.emitAll, List.foldl_cons] at ih ⊢; rw [ih]; simp
@[simp] theorem State.emitAll_line (s : State) (l : List Event) : (s.emitAll l).line = s.line := by
  induction l generalizing s with
  | nil => rfl
  | cons e l ih => simp only [State.emitAll, List.foldl_cons] at ih ⊢; rw [ih]; simp
@[simp] theorem State.emitAll_now (s : State) (l : List Event) : (s.emitAll l).now = s.now := by
  induction l generalizing s with
  | nil => rfl
  | cons e l ih => simp only [State.emitAll, List.foldl_cons] at ih ⊢; rw [ih]; simp
@[simp] theorem State.emitAll_free (s : State) (l : List Event) : (s.emitAll l).free = s.free := by
  induction l generalizing s with
  | nil => rfl
  | cons e l ih => simp only [State.emitAll, List.foldl_cons] at ih ⊢; rw [ih]; simp
@[simp] theorem State.emitAll_pending (s : State) (l : List Event) : (s.emitAll l).pending = s.pending := by
  induction l generalizing s with
  | nil => rfl
  | cons e l ih => simp only [State.emitAll, List.foldl_cons] at ih ⊢; rw [ih]; simp

@[simp] theorem State.forceOutputs_pins (s : State) : (s.forceOutputs).pins = s.pins := by unfold State.forceOutputs; split <;> rfl
@[simp] theorem State.forceOutputs_request (s : State) : (s.forceOutputs).request = s.request := by unfold State.forceOutputs; split <;> rfl
@[simp] theorem State.forceOutputs_custody (s : State) : (s.forceOutputs).custody = s.custody := by unfold State.forceOutputs; split <;> rfl
@[simp] theorem State.forceOutputs_dock (s : State) : (s.forceOutputs).dock = s.dock := by unfold State.forceOutputs; split <;> rfl
@[simp] theorem State.forceOutputs_conditioning (s : State) : (s.forceOutputs).conditioning = s.conditioning := by unfold State.forceOutputs; split <;> rfl
@[simp] theorem State.forceOutputs_fire (s : State) : (s.forceOutputs).fire = s.fire := by unfold State.forceOutputs; split <;> rfl
@[simp] theorem State.forceOutputs_transfer (s : State) : (s.forceOutputs).transfer = s.transfer := by unfold State.forceOutputs; split <;> rfl
@[simp] theorem State.forceOutputs_line (s : State) : (s.forceOutputs).line = s.line := by unfold State.forceOutputs; split <;> rfl
@[simp] theorem State.forceOutputs_notices (s : State) : (s.forceOutputs).notices = s.notices := by unfold State.forceOutputs; split <;> rfl
@[simp] theorem State.forceOutputs_now (s : State) : (s.forceOutputs).now = s.now := by unfold State.forceOutputs; split <;> rfl
@[simp] theorem State.forceOutputs_free (s : State) : (s.forceOutputs).free = s.free := by unfold State.forceOutputs; split <;> rfl
@[simp] theorem State.forceOutputs_pending (s : State) : (s.forceOutputs).pending = s.pending := by unfold State.forceOutputs; split <;> rfl

@[simp] theorem State.endManifest_pins (s : State) (n : Nat) (m : Manifest) (c : ManifestEnd) : (s.endManifest n m c).pins = s.pins := by simp [State.endManifest]
@[simp] theorem State.endManifest_request (s : State) (n : Nat) (m : Manifest) (c : ManifestEnd) : (s.endManifest n m c).request = s.request := by simp [State.endManifest]
@[simp] theorem State.endManifest_dock (s : State) (n : Nat) (m : Manifest) (c : ManifestEnd) : (s.endManifest n m c).dock = s.dock := by simp [State.endManifest]
@[simp] theorem State.endManifest_conditioning (s : State) (n : Nat) (m : Manifest) (c : ManifestEnd) : (s.endManifest n m c).conditioning = s.conditioning := by simp [State.endManifest]
@[simp] theorem State.endManifest_climate (s : State) (n : Nat) (m : Manifest) (c : ManifestEnd) : (s.endManifest n m c).climate = s.climate := by simp [State.endManifest]
@[simp] theorem State.endManifest_fire (s : State) (n : Nat) (m : Manifest) (c : ManifestEnd) : (s.endManifest n m c).fire = s.fire := by simp [State.endManifest]
@[simp] theorem State.endManifest_transfer (s : State) (n : Nat) (m : Manifest) (c : ManifestEnd) : (s.endManifest n m c).transfer = s.transfer := by simp [State.endManifest]
@[simp] theorem State.endManifest_line (s : State) (n : Nat) (m : Manifest) (c : ManifestEnd) : (s.endManifest n m c).line = s.line := by simp [State.endManifest]
@[simp] theorem State.endManifest_now (s : State) (n : Nat) (m : Manifest) (c : ManifestEnd) : (s.endManifest n m c).now = s.now := by simp [State.endManifest]
@[simp] theorem State.endManifest_free (s : State) (n : Nat) (m : Manifest) (c : ManifestEnd) : (s.endManifest n m c).free = s.free := by simp [State.endManifest]
@[simp] theorem State.endManifest_pending (s : State) (n : Nat) (m : Manifest) (c : ManifestEnd) : (s.endManifest n m c).pending = s.pending := by simp [State.endManifest]

@[simp] theorem State.restoreRecord_pins (s : State) (id : Ident) : (s.restoreRecord id).pins = s.pins := by unfold State.restoreRecord; repeat (first | rfl | split)
@[simp] theorem State.restoreRecord_request (s : State) (id : Ident) : (s.restoreRecord id).request = s.request := by unfold State.restoreRecord; repeat (first | rfl | split)
@[simp] theorem State.restoreRecord_dock (s : State) (id : Ident) : (s.restoreRecord id).dock = s.dock := by unfold State.restoreRecord; repeat (first | rfl | split)
@[simp] theorem State.restoreRecord_conditioning (s : State) (id : Ident) : (s.restoreRecord id).conditioning = s.conditioning := by unfold State.restoreRecord; repeat (first | rfl | split)
@[simp] theorem State.restoreRecord_climate (s : State) (id : Ident) : (s.restoreRecord id).climate = s.climate := by unfold State.restoreRecord; repeat (first | rfl | split)
@[simp] theorem State.restoreRecord_fire (s : State) (id : Ident) : (s.restoreRecord id).fire = s.fire := by unfold State.restoreRecord; repeat (first | rfl | split)
@[simp] theorem State.restoreRecord_transfer (s : State) (id : Ident) : (s.restoreRecord id).transfer = s.transfer := by unfold State.restoreRecord; repeat (first | rfl | split)
@[simp] theorem State.restoreRecord_line (s : State) (id : Ident) : (s.restoreRecord id).line = s.line := by unfold State.restoreRecord; repeat (first | rfl | split)
@[simp] theorem State.restoreRecord_notices (s : State) (id : Ident) : (s.restoreRecord id).notices = s.notices := by unfold State.restoreRecord; repeat (first | rfl | split)
@[simp] theorem State.restoreRecord_now (s : State) (id : Ident) : (s.restoreRecord id).now = s.now := by unfold State.restoreRecord; repeat (first | rfl | split)
@[simp] theorem State.restoreRecord_free (s : State) (id : Ident) : (s.restoreRecord id).free = s.free := by unfold State.restoreRecord; repeat (first | rfl | split)
@[simp] theorem State.restoreRecord_pending (s : State) (id : Ident) : (s.restoreRecord id).pending = s.pending := by unfold State.restoreRecord; repeat (first | rfl | split)

@[simp] theorem State.keepCartridge_pins (s : State) (e : TransferEntry) (o : TransferOutcome) (r : Option Byte) : (s.keepCartridge e o r).pins = s.pins := by simp [State.keepCartridge]
@[simp] theorem State.keepCartridge_request (s : State) (e : TransferEntry) (o : TransferOutcome) (r : Option Byte) : (s.keepCartridge e o r).request = s.request := by simp [State.keepCartridge]
@[simp] theorem State.keepCartridge_dock (s : State) (e : TransferEntry) (o : TransferOutcome) (r : Option Byte) : (s.keepCartridge e o r).dock = s.dock := by simp [State.keepCartridge]
@[simp] theorem State.keepCartridge_conditioning (s : State) (e : TransferEntry) (o : TransferOutcome) (r : Option Byte) : (s.keepCartridge e o r).conditioning = s.conditioning := by simp [State.keepCartridge]
@[simp] theorem State.keepCartridge_climate (s : State) (e : TransferEntry) (o : TransferOutcome) (r : Option Byte) : (s.keepCartridge e o r).climate = s.climate := by simp [State.keepCartridge]
@[simp] theorem State.keepCartridge_fire (s : State) (e : TransferEntry) (o : TransferOutcome) (r : Option Byte) : (s.keepCartridge e o r).fire = s.fire := by simp [State.keepCartridge]
@[simp] theorem State.keepCartridge_line (s : State) (e : TransferEntry) (o : TransferOutcome) (r : Option Byte) : (s.keepCartridge e o r).line = s.line := by simp [State.keepCartridge]
@[simp] theorem State.keepCartridge_now (s : State) (e : TransferEntry) (o : TransferOutcome) (r : Option Byte) : (s.keepCartridge e o r).now = s.now := by simp [State.keepCartridge]
@[simp] theorem State.keepCartridge_free (s : State) (e : TransferEntry) (o : TransferOutcome) (r : Option Byte) : (s.keepCartridge e o r).free = s.free := by simp [State.keepCartridge]
@[simp] theorem State.keepCartridge_pending (s : State) (e : TransferEntry) (o : TransferOutcome) (r : Option Byte) : (s.keepCartridge e o r).pending = s.pending := by simp [State.keepCartridge]

@[simp] theorem State.dropCartridge_pins (s : State) (e : TransferEntry) (o : TransferOutcome) : (s.dropCartridge e o).pins = s.pins := by simp [State.dropCartridge]
@[simp] theorem State.dropCartridge_request (s : State) (e : TransferEntry) (o : TransferOutcome) : (s.dropCartridge e o).request = s.request := by simp [State.dropCartridge]
@[simp] theorem State.dropCartridge_dock (s : State) (e : TransferEntry) (o : TransferOutcome) : (s.dropCartridge e o).dock = s.dock := by simp [State.dropCartridge]
@[simp] theorem State.dropCartridge_conditioning (s : State) (e : TransferEntry) (o : TransferOutcome) : (s.dropCartridge e o).conditioning = s.conditioning := by simp [State.dropCartridge]
@[simp] theorem State.dropCartridge_climate (s : State) (e : TransferEntry) (o : TransferOutcome) : (s.dropCartridge e o).climate = s.climate := by simp [State.dropCartridge]
@[simp] theorem State.dropCartridge_fire (s : State) (e : TransferEntry) (o : TransferOutcome) : (s.dropCartridge e o).fire = s.fire := by simp [State.dropCartridge]
@[simp] theorem State.dropCartridge_line (s : State) (e : TransferEntry) (o : TransferOutcome) : (s.dropCartridge e o).line = s.line := by simp [State.dropCartridge]
@[simp] theorem State.dropCartridge_now (s : State) (e : TransferEntry) (o : TransferOutcome) : (s.dropCartridge e o).now = s.now := by simp [State.dropCartridge]
@[simp] theorem State.dropCartridge_free (s : State) (e : TransferEntry) (o : TransferOutcome) : (s.dropCartridge e o).free = s.free := by simp [State.dropCartridge]
@[simp] theorem State.dropCartridge_pending (s : State) (e : TransferEntry) (o : TransferOutcome) : (s.dropCartridge e o).pending = s.pending := by simp [State.dropCartridge]

@[simp] theorem State.queueWithdraw_pins (s : State) (e : TransferEntry) : (s.queueWithdraw e).pins = s.pins := by unfold State.queueWithdraw; split <;> rfl
@[simp] theorem State.queueWithdraw_request (s : State) (e : TransferEntry) : (s.queueWithdraw e).request = s.request := by unfold State.queueWithdraw; split <;> rfl
@[simp] theorem State.queueWithdraw_custody (s : State) (e : TransferEntry) : (s.queueWithdraw e).custody = s.custody := by unfold State.queueWithdraw; split <;> rfl
@[simp] theorem State.queueWithdraw_dock (s : State) (e : TransferEntry) : (s.queueWithdraw e).dock = s.dock := by unfold State.queueWithdraw; split <;> rfl
@[simp] theorem State.queueWithdraw_conditioning (s : State) (e : TransferEntry) : (s.queueWithdraw e).conditioning = s.conditioning := by unfold State.queueWithdraw; split <;> rfl
@[simp] theorem State.queueWithdraw_climate (s : State) (e : TransferEntry) : (s.queueWithdraw e).climate = s.climate := by unfold State.queueWithdraw; split <;> rfl
@[simp] theorem State.queueWithdraw_fire (s : State) (e : TransferEntry) : (s.queueWithdraw e).fire = s.fire := by unfold State.queueWithdraw; split <;> rfl
@[simp] theorem State.queueWithdraw_transfer (s : State) (e : TransferEntry) : (s.queueWithdraw e).transfer = s.transfer := by unfold State.queueWithdraw; split <;> rfl
@[simp] theorem State.queueWithdraw_notices (s : State) (e : TransferEntry) : (s.queueWithdraw e).notices = s.notices := by unfold State.queueWithdraw; split <;> rfl
@[simp] theorem State.queueWithdraw_now (s : State) (e : TransferEntry) : (s.queueWithdraw e).now = s.now := by unfold State.queueWithdraw; split <;> rfl
@[simp] theorem State.queueWithdraw_free (s : State) (e : TransferEntry) : (s.queueWithdraw e).free = s.free := by unfold State.queueWithdraw; split <;> rfl
@[simp] theorem State.queueWithdraw_pending (s : State) (e : TransferEntry) : (s.queueWithdraw e).pending = s.pending := by unfold State.queueWithdraw; split <;> rfl

@[simp] theorem State.sendFrame_pins (s : State) (f : DockFrame) : (s.sendFrame f).pins = s.pins := rfl
@[simp] theorem State.sendFrame_request (s : State) (f : DockFrame) : (s.sendFrame f).request = s.request := rfl
@[simp] theorem State.sendFrame_custody (s : State) (f : DockFrame) : (s.sendFrame f).custody = s.custody := rfl
@[simp] theorem State.sendFrame_conditioning (s : State) (f : DockFrame) : (s.sendFrame f).conditioning = s.conditioning := rfl
@[simp] theorem State.sendFrame_climate (s : State) (f : DockFrame) : (s.sendFrame f).climate = s.climate := rfl
@[simp] theorem State.sendFrame_fire (s : State) (f : DockFrame) : (s.sendFrame f).fire = s.fire := rfl
@[simp] theorem State.sendFrame_transfer (s : State) (f : DockFrame) : (s.sendFrame f).transfer = s.transfer := rfl
@[simp] theorem State.sendFrame_line (s : State) (f : DockFrame) : (s.sendFrame f).line = s.line := rfl
@[simp] theorem State.sendFrame_notices (s : State) (f : DockFrame) : (s.sendFrame f).notices = s.notices := rfl
@[simp] theorem State.sendFrame_now (s : State) (f : DockFrame) : (s.sendFrame f).now = s.now := rfl
@[simp] theorem State.sendFrame_free (s : State) (f : DockFrame) : (s.sendFrame f).free = s.free := rfl
@[simp] theorem State.sendFrame_pending (s : State) (f : DockFrame) : (s.sendFrame f).pending = s.pending := rfl

@[simp] theorem State.sendAbort_pins (s : State) (o : SessionOutcome) : (s.sendAbort o).pins = s.pins := rfl
@[simp] theorem State.sendAbort_request (s : State) (o : SessionOutcome) : (s.sendAbort o).request = s.request := rfl
@[simp] theorem State.sendAbort_custody (s : State) (o : SessionOutcome) : (s.sendAbort o).custody = s.custody := rfl
@[simp] theorem State.sendAbort_conditioning (s : State) (o : SessionOutcome) : (s.sendAbort o).conditioning = s.conditioning := rfl
@[simp] theorem State.sendAbort_climate (s : State) (o : SessionOutcome) : (s.sendAbort o).climate = s.climate := rfl
@[simp] theorem State.sendAbort_fire (s : State) (o : SessionOutcome) : (s.sendAbort o).fire = s.fire := rfl
@[simp] theorem State.sendAbort_transfer (s : State) (o : SessionOutcome) : (s.sendAbort o).transfer = s.transfer := rfl
@[simp] theorem State.sendAbort_line (s : State) (o : SessionOutcome) : (s.sendAbort o).line = s.line := rfl
@[simp] theorem State.sendAbort_notices (s : State) (o : SessionOutcome) : (s.sendAbort o).notices = s.notices := rfl
@[simp] theorem State.sendAbort_now (s : State) (o : SessionOutcome) : (s.sendAbort o).now = s.now := rfl
@[simp] theorem State.sendAbort_free (s : State) (o : SessionOutcome) : (s.sendAbort o).free = s.free := rfl
@[simp] theorem State.sendAbort_pending (s : State) (o : SessionOutcome) : (s.sendAbort o).pending = s.pending := rfl

@[simp] theorem State.sendNext_pins (s : State) : (s.sendNext).pins = s.pins := by unfold State.sendNext; split <;> rfl
@[simp] theorem State.sendNext_request (s : State) : (s.sendNext).request = s.request := by unfold State.sendNext; split <;> rfl
@[simp] theorem State.sendNext_custody (s : State) : (s.sendNext).custody = s.custody := by unfold State.sendNext; split <;> rfl
@[simp] theorem State.sendNext_conditioning (s : State) : (s.sendNext).conditioning = s.conditioning := by unfold State.sendNext; split <;> rfl
@[simp] theorem State.sendNext_climate (s : State) : (s.sendNext).climate = s.climate := by unfold State.sendNext; split <;> rfl
@[simp] theorem State.sendNext_fire (s : State) : (s.sendNext).fire = s.fire := by unfold State.sendNext; split <;> rfl
@[simp] theorem State.sendNext_transfer (s : State) : (s.sendNext).transfer = s.transfer := by unfold State.sendNext; split <;> rfl
@[simp] theorem State.sendNext_line (s : State) : (s.sendNext).line = s.line := by unfold State.sendNext; split <;> rfl
@[simp] theorem State.sendNext_notices (s : State) : (s.sendNext).notices = s.notices := by unfold State.sendNext; split <;> rfl
@[simp] theorem State.sendNext_now (s : State) : (s.sendNext).now = s.now := by unfold State.sendNext; split <;> rfl
@[simp] theorem State.sendNext_free (s : State) : (s.sendNext).free = s.free := by unfold State.sendNext; split <;> rfl
@[simp] theorem State.sendNext_pending (s : State) : (s.sendNext).pending = s.pending := by unfold State.sendNext; split <;> rfl

@[simp] theorem State.sendAtOnce_pins (s : State) : (s.sendAtOnce).pins = s.pins := by unfold State.sendAtOnce; split <;> simp
@[simp] theorem State.sendAtOnce_request (s : State) : (s.sendAtOnce).request = s.request := by unfold State.sendAtOnce; split <;> simp
@[simp] theorem State.sendAtOnce_custody (s : State) : (s.sendAtOnce).custody = s.custody := by unfold State.sendAtOnce; split <;> simp
@[simp] theorem State.sendAtOnce_conditioning (s : State) : (s.sendAtOnce).conditioning = s.conditioning := by unfold State.sendAtOnce; split <;> simp
@[simp] theorem State.sendAtOnce_climate (s : State) : (s.sendAtOnce).climate = s.climate := by unfold State.sendAtOnce; split <;> simp
@[simp] theorem State.sendAtOnce_fire (s : State) : (s.sendAtOnce).fire = s.fire := by unfold State.sendAtOnce; split <;> simp
@[simp] theorem State.sendAtOnce_transfer (s : State) : (s.sendAtOnce).transfer = s.transfer := by unfold State.sendAtOnce; split <;> simp
@[simp] theorem State.sendAtOnce_line (s : State) : (s.sendAtOnce).line = s.line := by unfold State.sendAtOnce; split <;> simp
@[simp] theorem State.sendAtOnce_notices (s : State) : (s.sendAtOnce).notices = s.notices := by unfold State.sendAtOnce; split <;> simp
@[simp] theorem State.sendAtOnce_now (s : State) : (s.sendAtOnce).now = s.now := by unfold State.sendAtOnce; split <;> simp
@[simp] theorem State.sendAtOnce_free (s : State) : (s.sendAtOnce).free = s.free := by unfold State.sendAtOnce; split <;> simp
@[simp] theorem State.sendAtOnce_pending (s : State) : (s.sendAtOnce).pending = s.pending := by unfold State.sendAtOnce; split <;> simp

@[simp] theorem State.endExchange_pins (s : State) : (s.endExchange).pins = s.pins := by simp only [State.endExchange]; split <;> rfl
@[simp] theorem State.endExchange_request (s : State) : (s.endExchange).request = s.request := by simp only [State.endExchange]; split <;> rfl
@[simp] theorem State.endExchange_custody (s : State) : (s.endExchange).custody = s.custody := by simp only [State.endExchange]; split <;> rfl
@[simp] theorem State.endExchange_conditioning (s : State) : (s.endExchange).conditioning = s.conditioning := by simp only [State.endExchange]; split <;> rfl
@[simp] theorem State.endExchange_climate (s : State) : (s.endExchange).climate = s.climate := by simp only [State.endExchange]; split <;> rfl
@[simp] theorem State.endExchange_fire (s : State) : (s.endExchange).fire = s.fire := by simp only [State.endExchange]; split <;> rfl
@[simp] theorem State.endExchange_transfer (s : State) : (s.endExchange).transfer = s.transfer := by simp only [State.endExchange]; split <;> rfl
@[simp] theorem State.endExchange_line (s : State) : (s.endExchange).line = s.line := by simp only [State.endExchange]; split <;> rfl
@[simp] theorem State.endExchange_notices (s : State) : (s.endExchange).notices = s.notices := by simp only [State.endExchange]; split <;> rfl
@[simp] theorem State.endExchange_now (s : State) : (s.endExchange).now = s.now := by simp only [State.endExchange]; split <;> rfl
@[simp] theorem State.endExchange_free (s : State) : (s.endExchange).free = s.free := by simp only [State.endExchange]; split <;> rfl
@[simp] theorem State.endExchange_pending (s : State) : (s.endExchange).pending = s.pending := by simp only [State.endExchange]; split <;> rfl

@[simp] theorem State.reopenManifest_pins (s : State) : (s.reopenManifest).pins = s.pins := by unfold State.reopenManifest; repeat (first | rfl | split)
@[simp] theorem State.reopenManifest_request (s : State) : (s.reopenManifest).request = s.request := by unfold State.reopenManifest; repeat (first | rfl | split)
@[simp] theorem State.reopenManifest_dock (s : State) : (s.reopenManifest).dock = s.dock := by unfold State.reopenManifest; repeat (first | rfl | split)
@[simp] theorem State.reopenManifest_conditioning (s : State) : (s.reopenManifest).conditioning = s.conditioning := by unfold State.reopenManifest; repeat (first | rfl | split)
@[simp] theorem State.reopenManifest_climate (s : State) : (s.reopenManifest).climate = s.climate := by unfold State.reopenManifest; repeat (first | rfl | split)
@[simp] theorem State.reopenManifest_fire (s : State) : (s.reopenManifest).fire = s.fire := by unfold State.reopenManifest; repeat (first | rfl | split)
@[simp] theorem State.reopenManifest_transfer (s : State) : (s.reopenManifest).transfer = s.transfer := by unfold State.reopenManifest; repeat (first | rfl | split)
@[simp] theorem State.reopenManifest_line (s : State) : (s.reopenManifest).line = s.line := by unfold State.reopenManifest; repeat (first | rfl | split)
@[simp] theorem State.reopenManifest_notices (s : State) : (s.reopenManifest).notices = s.notices := by unfold State.reopenManifest; repeat (first | rfl | split)
@[simp] theorem State.reopenManifest_now (s : State) : (s.reopenManifest).now = s.now := by unfold State.reopenManifest; repeat (first | rfl | split)
@[simp] theorem State.reopenManifest_free (s : State) : (s.reopenManifest).free = s.free := by unfold State.reopenManifest; repeat (first | rfl | split)
@[simp] theorem State.reopenManifest_pending (s : State) : (s.reopenManifest).pending = s.pending := by unfold State.reopenManifest; repeat (first | rfl | split)

@[simp] theorem State.abort_pins (s : State) (o : SessionOutcome) : (s.abort o).pins = s.pins := by unfold State.abort; split <;> rfl
@[simp] theorem State.abort_request (s : State) (o : SessionOutcome) : (s.abort o).request = s.request := by unfold State.abort; split <;> rfl
@[simp] theorem State.abort_custody (s : State) (o : SessionOutcome) : (s.abort o).custody = s.custody := by unfold State.abort; split <;> rfl
@[simp] theorem State.abort_conditioning (s : State) (o : SessionOutcome) : (s.abort o).conditioning = s.conditioning := by unfold State.abort; split <;> rfl
@[simp] theorem State.abort_climate (s : State) (o : SessionOutcome) : (s.abort o).climate = s.climate := by unfold State.abort; split <;> rfl
@[simp] theorem State.abort_fire (s : State) (o : SessionOutcome) : (s.abort o).fire = s.fire := by unfold State.abort; split <;> rfl
@[simp] theorem State.abort_transfer (s : State) (o : SessionOutcome) : (s.abort o).transfer = s.transfer := by unfold State.abort; split <;> rfl
@[simp] theorem State.abort_line (s : State) (o : SessionOutcome) : (s.abort o).line = s.line := by unfold State.abort; split <;> rfl
@[simp] theorem State.abort_notices (s : State) (o : SessionOutcome) : (s.abort o).notices = s.notices := by unfold State.abort; split <;> rfl
@[simp] theorem State.abort_now (s : State) (o : SessionOutcome) : (s.abort o).now = s.now := by unfold State.abort; split <;> rfl
@[simp] theorem State.abort_free (s : State) (o : SessionOutcome) : (s.abort o).free = s.free := by unfold State.abort; split <;> rfl
@[simp] theorem State.abort_pending (s : State) (o : SessionOutcome) : (s.abort o).pending = s.pending := by unfold State.abort; split <;> rfl

@[simp] theorem State.revertSession_pins (s : State) : (s.revertSession).pins = s.pins := by simp [State.revertSession]
@[simp] theorem State.revertSession_request (s : State) : (s.revertSession).request = s.request := by simp [State.revertSession]
@[simp] theorem State.revertSession_conditioning (s : State) : (s.revertSession).conditioning = s.conditioning := by simp [State.revertSession]
@[simp] theorem State.revertSession_climate (s : State) : (s.revertSession).climate = s.climate := by simp [State.revertSession]
@[simp] theorem State.revertSession_fire (s : State) : (s.revertSession).fire = s.fire := by simp [State.revertSession]
@[simp] theorem State.revertSession_transfer (s : State) : (s.revertSession).transfer = s.transfer := by simp [State.revertSession]
@[simp] theorem State.revertSession_line (s : State) : (s.revertSession).line = s.line := by simp [State.revertSession]
@[simp] theorem State.revertSession_notices (s : State) : (s.revertSession).notices = s.notices := by simp [State.revertSession]
@[simp] theorem State.revertSession_now (s : State) : (s.revertSession).now = s.now := by simp [State.revertSession]
@[simp] theorem State.revertSession_free (s : State) : (s.revertSession).free = s.free := by simp [State.revertSession]
@[simp] theorem State.revertSession_pending (s : State) : (s.revertSession).pending = s.pending := by simp [State.revertSession]

@[simp] theorem State.endUncommitted_pins (s : State) (o : SessionOutcome) : (s.endUncommitted o).pins = s.pins := by simp only [State.endUncommitted]; split <;> simp
@[simp] theorem State.endUncommitted_request (s : State) (o : SessionOutcome) : (s.endUncommitted o).request = s.request := by simp only [State.endUncommitted]; split <;> simp
@[simp] theorem State.endUncommitted_conditioning (s : State) (o : SessionOutcome) : (s.endUncommitted o).conditioning = s.conditioning := by simp only [State.endUncommitted]; split <;> simp
@[simp] theorem State.endUncommitted_climate (s : State) (o : SessionOutcome) : (s.endUncommitted o).climate = s.climate := by simp only [State.endUncommitted]; split <;> simp
@[simp] theorem State.endUncommitted_fire (s : State) (o : SessionOutcome) : (s.endUncommitted o).fire = s.fire := by simp only [State.endUncommitted]; split <;> simp
@[simp] theorem State.endUncommitted_transfer (s : State) (o : SessionOutcome) : (s.endUncommitted o).transfer = s.transfer := by simp only [State.endUncommitted]; split <;> simp
@[simp] theorem State.endUncommitted_line (s : State) (o : SessionOutcome) : (s.endUncommitted o).line = s.line := by simp only [State.endUncommitted]; split <;> simp
@[simp] theorem State.endUncommitted_now (s : State) (o : SessionOutcome) : (s.endUncommitted o).now = s.now := by simp only [State.endUncommitted]; split <;> simp
@[simp] theorem State.endUncommitted_free (s : State) (o : SessionOutcome) : (s.endUncommitted o).free = s.free := by simp only [State.endUncommitted]; split <;> simp
@[simp] theorem State.endUncommitted_pending (s : State) (o : SessionOutcome) : (s.endUncommitted o).pending = s.pending := by simp only [State.endUncommitted]; split <;> simp

@[simp] theorem State.endCommitted_pins (s : State) (o : SessionOutcome) : (s.endCommitted o).pins = s.pins := by simp [State.endCommitted]
@[simp] theorem State.endCommitted_request (s : State) (o : SessionOutcome) : (s.endCommitted o).request = s.request := by simp [State.endCommitted]
@[simp] theorem State.endCommitted_custody (s : State) (o : SessionOutcome) : (s.endCommitted o).custody = s.custody := by simp [State.endCommitted]
@[simp] theorem State.endCommitted_conditioning (s : State) (o : SessionOutcome) : (s.endCommitted o).conditioning = s.conditioning := by simp [State.endCommitted]
@[simp] theorem State.endCommitted_climate (s : State) (o : SessionOutcome) : (s.endCommitted o).climate = s.climate := by simp [State.endCommitted]
@[simp] theorem State.endCommitted_fire (s : State) (o : SessionOutcome) : (s.endCommitted o).fire = s.fire := by simp [State.endCommitted]
@[simp] theorem State.endCommitted_transfer (s : State) (o : SessionOutcome) : (s.endCommitted o).transfer = s.transfer := by simp [State.endCommitted]
@[simp] theorem State.endCommitted_line (s : State) (o : SessionOutcome) : (s.endCommitted o).line = s.line := by simp [State.endCommitted]
@[simp] theorem State.endCommitted_now (s : State) (o : SessionOutcome) : (s.endCommitted o).now = s.now := by simp [State.endCommitted]
@[simp] theorem State.endCommitted_free (s : State) (o : SessionOutcome) : (s.endCommitted o).free = s.free := by simp [State.endCommitted]
@[simp] theorem State.endCommitted_pending (s : State) (o : SessionOutcome) : (s.endCommitted o).pending = s.pending := by simp [State.endCommitted]

@[simp] theorem State.frameFault_pins (s : State) : (s.frameFault).pins = s.pins := by unfold State.frameFault; split <;> (try split) <;> simp
@[simp] theorem State.frameFault_request (s : State) : (s.frameFault).request = s.request := by unfold State.frameFault; split <;> (try split) <;> simp
@[simp] theorem State.frameFault_conditioning (s : State) : (s.frameFault).conditioning = s.conditioning := by unfold State.frameFault; split <;> (try split) <;> simp
@[simp] theorem State.frameFault_climate (s : State) : (s.frameFault).climate = s.climate := by unfold State.frameFault; split <;> (try split) <;> simp
@[simp] theorem State.frameFault_fire (s : State) : (s.frameFault).fire = s.fire := by unfold State.frameFault; split <;> (try split) <;> simp
@[simp] theorem State.frameFault_transfer (s : State) : (s.frameFault).transfer = s.transfer := by unfold State.frameFault; split <;> (try split) <;> simp
@[simp] theorem State.frameFault_line (s : State) : (s.frameFault).line = s.line := by unfold State.frameFault; split <;> (try split) <;> simp
@[simp] theorem State.frameFault_now (s : State) : (s.frameFault).now = s.now := by unfold State.frameFault; split <;> (try split) <;> simp
@[simp] theorem State.frameFault_free (s : State) : (s.frameFault).free = s.free := by unfold State.frameFault; split <;> (try split) <;> simp
@[simp] theorem State.frameFault_pending (s : State) : (s.frameFault).pending = s.pending := by unfold State.frameFault; split <;> (try split) <;> simp

@[simp] theorem State.refreshFireOutputs_pins (s : State) : (s.refreshFireOutputs).pins = s.pins := rfl
@[simp] theorem State.refreshFireOutputs_request (s : State) : (s.refreshFireOutputs).request = s.request := rfl
@[simp] theorem State.refreshFireOutputs_custody (s : State) : (s.refreshFireOutputs).custody = s.custody := rfl
@[simp] theorem State.refreshFireOutputs_dock (s : State) : (s.refreshFireOutputs).dock = s.dock := rfl
@[simp] theorem State.refreshFireOutputs_conditioning (s : State) : (s.refreshFireOutputs).conditioning = s.conditioning := rfl
@[simp] theorem State.refreshFireOutputs_climate (s : State) : (s.refreshFireOutputs).climate = s.climate := rfl
@[simp] theorem State.refreshFireOutputs_transfer (s : State) : (s.refreshFireOutputs).transfer = s.transfer := rfl
@[simp] theorem State.refreshFireOutputs_line (s : State) : (s.refreshFireOutputs).line = s.line := rfl
@[simp] theorem State.refreshFireOutputs_notices (s : State) : (s.refreshFireOutputs).notices = s.notices := rfl
@[simp] theorem State.refreshFireOutputs_now (s : State) : (s.refreshFireOutputs).now = s.now := rfl
@[simp] theorem State.refreshFireOutputs_free (s : State) : (s.refreshFireOutputs).free = s.free := rfl
@[simp] theorem State.refreshFireOutputs_pending (s : State) : (s.refreshFireOutputs).pending = s.pending := rfl

@[simp] theorem State.enterSeq_pins (s : State) (q : Seq) (c : FireCause) : (s.enterSeq q c).pins = s.pins := by simp [State.enterSeq]
@[simp] theorem State.enterSeq_request (s : State) (q : Seq) (c : FireCause) : (s.enterSeq q c).request = s.request := by simp [State.enterSeq]
@[simp] theorem State.enterSeq_custody (s : State) (q : Seq) (c : FireCause) : (s.enterSeq q c).custody = s.custody := by simp [State.enterSeq]
@[simp] theorem State.enterSeq_dock (s : State) (q : Seq) (c : FireCause) : (s.enterSeq q c).dock = s.dock := by simp [State.enterSeq]
@[simp] theorem State.enterSeq_conditioning (s : State) (q : Seq) (c : FireCause) : (s.enterSeq q c).conditioning = s.conditioning := by simp [State.enterSeq]
@[simp] theorem State.enterSeq_transfer (s : State) (q : Seq) (c : FireCause) : (s.enterSeq q c).transfer = s.transfer := by simp [State.enterSeq]
@[simp] theorem State.enterSeq_line (s : State) (q : Seq) (c : FireCause) : (s.enterSeq q c).line = s.line := by simp [State.enterSeq]
@[simp] theorem State.enterSeq_now (s : State) (q : Seq) (c : FireCause) : (s.enterSeq q c).now = s.now := by simp [State.enterSeq]
@[simp] theorem State.enterSeq_free (s : State) (q : Seq) (c : FireCause) : (s.enterSeq q c).free = s.free := by simp [State.enterSeq]
@[simp] theorem State.enterSeq_pending (s : State) (q : Seq) (c : FireCause) : (s.enterSeq q c).pending = s.pending := by simp [State.enterSeq]

@[simp] theorem State.fireEndsSession_pins (s : State) : (s.fireEndsSession).pins = s.pins := by unfold State.fireEndsSession; split <;> simp
@[simp] theorem State.fireEndsSession_request (s : State) : (s.fireEndsSession).request = s.request := by unfold State.fireEndsSession; split <;> simp
@[simp] theorem State.fireEndsSession_conditioning (s : State) : (s.fireEndsSession).conditioning = s.conditioning := by unfold State.fireEndsSession; split <;> simp
@[simp] theorem State.fireEndsSession_climate (s : State) : (s.fireEndsSession).climate = s.climate := by unfold State.fireEndsSession; split <;> simp
@[simp] theorem State.fireEndsSession_fire (s : State) : (s.fireEndsSession).fire = s.fire := by unfold State.fireEndsSession; split <;> simp
@[simp] theorem State.fireEndsSession_transfer (s : State) : (s.fireEndsSession).transfer = s.transfer := by unfold State.fireEndsSession; split <;> simp
@[simp] theorem State.fireEndsSession_line (s : State) : (s.fireEndsSession).line = s.line := by unfold State.fireEndsSession; split <;> simp
@[simp] theorem State.fireEndsSession_now (s : State) : (s.fireEndsSession).now = s.now := by unfold State.fireEndsSession; split <;> simp
@[simp] theorem State.fireEndsSession_free (s : State) : (s.fireEndsSession).free = s.free := by unfold State.fireEndsSession; split <;> simp
@[simp] theorem State.fireEndsSession_pending (s : State) : (s.fireEndsSession).pending = s.pending := by unfold State.fireEndsSession; split <;> simp

@[simp] theorem State.judgeNeighbours_pins (s : State) : (s.judgeNeighbours).pins = s.pins := by simp only [State.judgeNeighbours]; split <;> simp
@[simp] theorem State.judgeNeighbours_request (s : State) : (s.judgeNeighbours).request = s.request := by simp only [State.judgeNeighbours]; split <;> simp
@[simp] theorem State.judgeNeighbours_custody (s : State) : (s.judgeNeighbours).custody = s.custody := by simp only [State.judgeNeighbours]; split <;> simp
@[simp] theorem State.judgeNeighbours_dock (s : State) : (s.judgeNeighbours).dock = s.dock := by simp only [State.judgeNeighbours]; split <;> simp
@[simp] theorem State.judgeNeighbours_conditioning (s : State) : (s.judgeNeighbours).conditioning = s.conditioning := by simp only [State.judgeNeighbours]; split <;> simp
@[simp] theorem State.judgeNeighbours_transfer (s : State) : (s.judgeNeighbours).transfer = s.transfer := by simp only [State.judgeNeighbours]; split <;> simp
@[simp] theorem State.judgeNeighbours_line (s : State) : (s.judgeNeighbours).line = s.line := by simp only [State.judgeNeighbours]; split <;> simp
@[simp] theorem State.judgeNeighbours_now (s : State) : (s.judgeNeighbours).now = s.now := by simp only [State.judgeNeighbours]; split <;> simp
@[simp] theorem State.judgeNeighbours_free (s : State) : (s.judgeNeighbours).free = s.free := by simp only [State.judgeNeighbours]; split <;> simp
@[simp] theorem State.judgeNeighbours_pending (s : State) : (s.judgeNeighbours).pending = s.pending := by simp only [State.judgeNeighbours]; split <;> simp

@[simp] theorem State.rollover_pins (s : State) : (s.rollover).pins = s.pins := by simp [State.rollover]
@[simp] theorem State.rollover_request (s : State) : (s.rollover).request = s.request := by simp [State.rollover]
@[simp] theorem State.rollover_dock (s : State) : (s.rollover).dock = s.dock := by simp [State.rollover]
@[simp] theorem State.rollover_climate (s : State) : (s.rollover).climate = s.climate := by simp [State.rollover]
@[simp] theorem State.rollover_fire (s : State) : (s.rollover).fire = s.fire := by simp [State.rollover]
@[simp] theorem State.rollover_transfer (s : State) : (s.rollover).transfer = s.transfer := by simp [State.rollover]
@[simp] theorem State.rollover_line (s : State) : (s.rollover).line = s.line := by simp [State.rollover]
@[simp] theorem State.rollover_now (s : State) : (s.rollover).now = s.now := by simp [State.rollover]
@[simp] theorem State.rollover_free (s : State) : (s.rollover).free = s.free := by simp [State.rollover]
@[simp] theorem State.rollover_pending (s : State) : (s.rollover).pending = s.pending := by simp [State.rollover]

@[simp] theorem State.runningSecond_pins (s : State) : (s.runningSecond).pins = s.pins := by unfold State.runningSecond; split <;> simp
@[simp] theorem State.runningSecond_request (s : State) : (s.runningSecond).request = s.request := by unfold State.runningSecond; split <;> simp
@[simp] theorem State.runningSecond_dock (s : State) : (s.runningSecond).dock = s.dock := by unfold State.runningSecond; split <;> simp
@[simp] theorem State.runningSecond_climate (s : State) : (s.runningSecond).climate = s.climate := by unfold State.runningSecond; split <;> simp
@[simp] theorem State.runningSecond_fire (s : State) : (s.runningSecond).fire = s.fire := by unfold State.runningSecond; split <;> simp
@[simp] theorem State.runningSecond_transfer (s : State) : (s.runningSecond).transfer = s.transfer := by unfold State.runningSecond; split <;> simp
@[simp] theorem State.runningSecond_line (s : State) : (s.runningSecond).line = s.line := by unfold State.runningSecond; split <;> simp
@[simp] theorem State.runningSecond_now (s : State) : (s.runningSecond).now = s.now := by unfold State.runningSecond; split <;> simp
@[simp] theorem State.runningSecond_free (s : State) : (s.runningSecond).free = s.free := by unfold State.runningSecond; split <;> simp
@[simp] theorem State.runningSecond_pending (s : State) : (s.runningSecond).pending = s.pending := by unfold State.runningSecond; split <;> simp

@[simp] theorem State.completeHold_pins (s : State) (r : Record) : (s.completeHold r).pins = s.pins := by simp [State.completeHold]
@[simp] theorem State.completeHold_request (s : State) (r : Record) : (s.completeHold r).request = s.request := by simp [State.completeHold]
@[simp] theorem State.completeHold_dock (s : State) (r : Record) : (s.completeHold r).dock = s.dock := by simp [State.completeHold]
@[simp] theorem State.completeHold_conditioning (s : State) (r : Record) : (s.completeHold r).conditioning = s.conditioning := by simp [State.completeHold]
@[simp] theorem State.completeHold_climate (s : State) (r : Record) : (s.completeHold r).climate = s.climate := by simp [State.completeHold]
@[simp] theorem State.completeHold_fire (s : State) (r : Record) : (s.completeHold r).fire = s.fire := by simp [State.completeHold]
@[simp] theorem State.completeHold_transfer (s : State) (r : Record) : (s.completeHold r).transfer = s.transfer := by simp [State.completeHold]
@[simp] theorem State.completeHold_line (s : State) (r : Record) : (s.completeHold r).line = s.line := by simp [State.completeHold]
@[simp] theorem State.completeHold_now (s : State) (r : Record) : (s.completeHold r).now = s.now := by simp [State.completeHold]
@[simp] theorem State.completeHold_free (s : State) (r : Record) : (s.completeHold r).free = s.free := by simp [State.completeHold]
@[simp] theorem State.completeHold_pending (s : State) (r : Record) : (s.completeHold r).pending = s.pending := by simp [State.completeHold]

@[simp] theorem State.completeStep_pins (s : State) : (s.completeStep).pins = s.pins := by unfold State.completeStep; split <;> simp
@[simp] theorem State.completeStep_request (s : State) : (s.completeStep).request = s.request := by unfold State.completeStep; split <;> simp
@[simp] theorem State.completeStep_dock (s : State) : (s.completeStep).dock = s.dock := by unfold State.completeStep; split <;> simp
@[simp] theorem State.completeStep_conditioning (s : State) : (s.completeStep).conditioning = s.conditioning := by unfold State.completeStep; split <;> simp
@[simp] theorem State.completeStep_climate (s : State) : (s.completeStep).climate = s.climate := by unfold State.completeStep; split <;> simp
@[simp] theorem State.completeStep_fire (s : State) : (s.completeStep).fire = s.fire := by unfold State.completeStep; split <;> simp
@[simp] theorem State.completeStep_transfer (s : State) : (s.completeStep).transfer = s.transfer := by unfold State.completeStep; split <;> simp
@[simp] theorem State.completeStep_line (s : State) : (s.completeStep).line = s.line := by unfold State.completeStep; split <;> simp
@[simp] theorem State.completeStep_now (s : State) : (s.completeStep).now = s.now := by unfold State.completeStep; split <;> simp
@[simp] theorem State.completeStep_free (s : State) : (s.completeStep).free = s.free := by unfold State.completeStep; split <;> simp
@[simp] theorem State.completeStep_pending (s : State) : (s.completeStep).pending = s.pending := by unfold State.completeStep; split <;> simp

@[simp] theorem State.expireManifestStep_pins (s : State) : (s.expireManifestStep).pins = s.pins := by unfold State.expireManifestStep; split <;> (try split) <;> simp
@[simp] theorem State.expireManifestStep_request (s : State) : (s.expireManifestStep).request = s.request := by unfold State.expireManifestStep; split <;> (try split) <;> simp
@[simp] theorem State.expireManifestStep_dock (s : State) : (s.expireManifestStep).dock = s.dock := by unfold State.expireManifestStep; split <;> (try split) <;> simp
@[simp] theorem State.expireManifestStep_conditioning (s : State) : (s.expireManifestStep).conditioning = s.conditioning := by unfold State.expireManifestStep; split <;> (try split) <;> simp
@[simp] theorem State.expireManifestStep_climate (s : State) : (s.expireManifestStep).climate = s.climate := by unfold State.expireManifestStep; split <;> (try split) <;> simp
@[simp] theorem State.expireManifestStep_fire (s : State) : (s.expireManifestStep).fire = s.fire := by unfold State.expireManifestStep; split <;> (try split) <;> simp
@[simp] theorem State.expireManifestStep_transfer (s : State) : (s.expireManifestStep).transfer = s.transfer := by unfold State.expireManifestStep; split <;> (try split) <;> simp
@[simp] theorem State.expireManifestStep_line (s : State) : (s.expireManifestStep).line = s.line := by unfold State.expireManifestStep; split <;> (try split) <;> simp
@[simp] theorem State.expireManifestStep_now (s : State) : (s.expireManifestStep).now = s.now := by unfold State.expireManifestStep; split <;> (try split) <;> simp
@[simp] theorem State.expireManifestStep_free (s : State) : (s.expireManifestStep).free = s.free := by unfold State.expireManifestStep; split <;> (try split) <;> simp
@[simp] theorem State.expireManifestStep_pending (s : State) : (s.expireManifestStep).pending = s.pending := by unfold State.expireManifestStep; split <;> (try split) <;> simp

@[simp] theorem State.expireTransit_pins (s : State) (e : TransferEntry) : (s.expireTransit e).pins = s.pins := by unfold State.expireTransit; split <;> simp
@[simp] theorem State.expireTransit_request (s : State) (e : TransferEntry) : (s.expireTransit e).request = s.request := by unfold State.expireTransit; split <;> simp
@[simp] theorem State.expireTransit_dock (s : State) (e : TransferEntry) : (s.expireTransit e).dock = s.dock := by unfold State.expireTransit; split <;> simp
@[simp] theorem State.expireTransit_conditioning (s : State) (e : TransferEntry) : (s.expireTransit e).conditioning = s.conditioning := by unfold State.expireTransit; split <;> simp
@[simp] theorem State.expireTransit_climate (s : State) (e : TransferEntry) : (s.expireTransit e).climate = s.climate := by unfold State.expireTransit; split <;> simp
@[simp] theorem State.expireTransit_fire (s : State) (e : TransferEntry) : (s.expireTransit e).fire = s.fire := by unfold State.expireTransit; split <;> simp
@[simp] theorem State.expireTransit_line (s : State) (e : TransferEntry) : (s.expireTransit e).line = s.line := by unfold State.expireTransit; split <;> simp
@[simp] theorem State.expireTransit_now (s : State) (e : TransferEntry) : (s.expireTransit e).now = s.now := by unfold State.expireTransit; split <;> simp
@[simp] theorem State.expireTransit_free (s : State) (e : TransferEntry) : (s.expireTransit e).free = s.free := by unfold State.expireTransit; split <;> simp
@[simp] theorem State.expireTransit_pending (s : State) (e : TransferEntry) : (s.expireTransit e).pending = s.pending := by unfold State.expireTransit; split <;> simp

@[simp] theorem State.superframeStep_pins (s : State) : (s.superframeStep).pins = s.pins := by unfold State.superframeStep; split <;> rfl
@[simp] theorem State.superframeStep_request (s : State) : (s.superframeStep).request = s.request := by unfold State.superframeStep; split <;> rfl
@[simp] theorem State.superframeStep_custody (s : State) : (s.superframeStep).custody = s.custody := by unfold State.superframeStep; split <;> rfl
@[simp] theorem State.superframeStep_dock (s : State) : (s.superframeStep).dock = s.dock := by unfold State.superframeStep; split <;> rfl
@[simp] theorem State.superframeStep_conditioning (s : State) : (s.superframeStep).conditioning = s.conditioning := by unfold State.superframeStep; split <;> rfl
@[simp] theorem State.superframeStep_climate (s : State) : (s.superframeStep).climate = s.climate := by unfold State.superframeStep; split <;> rfl
@[simp] theorem State.superframeStep_fire (s : State) : (s.superframeStep).fire = s.fire := by unfold State.superframeStep; split <;> rfl
@[simp] theorem State.superframeStep_transfer (s : State) : (s.superframeStep).transfer = s.transfer := by unfold State.superframeStep; split <;> rfl
@[simp] theorem State.superframeStep_notices (s : State) : (s.superframeStep).notices = s.notices := by unfold State.superframeStep; split <;> rfl
@[simp] theorem State.superframeStep_now (s : State) : (s.superframeStep).now = s.now := by unfold State.superframeStep; split <;> rfl
@[simp] theorem State.superframeStep_free (s : State) : (s.superframeStep).free = s.free := by unfold State.superframeStep; split <;> rfl
@[simp] theorem State.superframeStep_pending (s : State) : (s.superframeStep).pending = s.pending := by unfold State.superframeStep; split <;> rfl

@[simp] theorem State.setPeer_pins (s : State) (a : Nat) (p : PeerEntry) : (s.setPeer a p).pins = s.pins := rfl
@[simp] theorem State.setPeer_request (s : State) (a : Nat) (p : PeerEntry) : (s.setPeer a p).request = s.request := rfl
@[simp] theorem State.setPeer_custody (s : State) (a : Nat) (p : PeerEntry) : (s.setPeer a p).custody = s.custody := rfl
@[simp] theorem State.setPeer_dock (s : State) (a : Nat) (p : PeerEntry) : (s.setPeer a p).dock = s.dock := rfl
@[simp] theorem State.setPeer_conditioning (s : State) (a : Nat) (p : PeerEntry) : (s.setPeer a p).conditioning = s.conditioning := rfl
@[simp] theorem State.setPeer_climate (s : State) (a : Nat) (p : PeerEntry) : (s.setPeer a p).climate = s.climate := rfl
@[simp] theorem State.setPeer_fire (s : State) (a : Nat) (p : PeerEntry) : (s.setPeer a p).fire = s.fire := rfl
@[simp] theorem State.setPeer_transfer (s : State) (a : Nat) (p : PeerEntry) : (s.setPeer a p).transfer = s.transfer := rfl
@[simp] theorem State.setPeer_notices (s : State) (a : Nat) (p : PeerEntry) : (s.setPeer a p).notices = s.notices := rfl
@[simp] theorem State.setPeer_now (s : State) (a : Nat) (p : PeerEntry) : (s.setPeer a p).now = s.now := rfl
@[simp] theorem State.setPeer_free (s : State) (a : Nat) (p : PeerEntry) : (s.setPeer a p).free = s.free := rfl
@[simp] theorem State.setPeer_pending (s : State) (a : Nat) (p : PeerEntry) : (s.setPeer a p).pending = s.pending := rfl

@[simp] theorem State.makeAbsent_pins (s : State) (a : Nat) : (s.makeAbsent a).pins = s.pins := by unfold State.makeAbsent; split; (· rfl); split <;> (try rfl); simp only [State.judgeNeighbours_pins]; split <;> simp
@[simp] theorem State.makeAbsent_request (s : State) (a : Nat) : (s.makeAbsent a).request = s.request := by unfold State.makeAbsent; split; (· rfl); split <;> (try rfl); simp only [State.judgeNeighbours_request]; split <;> simp
@[simp] theorem State.makeAbsent_custody (s : State) (a : Nat) : (s.makeAbsent a).custody = s.custody := by unfold State.makeAbsent; split; (· rfl); split <;> (try rfl); simp only [State.judgeNeighbours_custody]; split <;> simp
@[simp] theorem State.makeAbsent_dock (s : State) (a : Nat) : (s.makeAbsent a).dock = s.dock := by unfold State.makeAbsent; split; (· rfl); split <;> (try rfl); simp only [State.judgeNeighbours_dock]; split <;> simp
@[simp] theorem State.makeAbsent_conditioning (s : State) (a : Nat) : (s.makeAbsent a).conditioning = s.conditioning := by unfold State.makeAbsent; split; (· rfl); split <;> (try rfl); simp only [State.judgeNeighbours_conditioning]; split <;> simp
@[simp] theorem State.makeAbsent_transfer (s : State) (a : Nat) : (s.makeAbsent a).transfer = s.transfer := by unfold State.makeAbsent; split; (· rfl); split <;> (try rfl); simp only [State.judgeNeighbours_transfer]; split <;> simp
@[simp] theorem State.makeAbsent_now (s : State) (a : Nat) : (s.makeAbsent a).now = s.now := by unfold State.makeAbsent; split; (· rfl); split <;> (try rfl); simp only [State.judgeNeighbours_now]; split <;> simp
@[simp] theorem State.makeAbsent_free (s : State) (a : Nat) : (s.makeAbsent a).free = s.free := by unfold State.makeAbsent; split; (· rfl); split <;> (try rfl); simp only [State.judgeNeighbours_free]; split <;> simp
@[simp] theorem State.makeAbsent_pending (s : State) (a : Nat) : (s.makeAbsent a).pending = s.pending := by unfold State.makeAbsent; split; (· rfl); split <;> (try rfl); simp only [State.judgeNeighbours_pending]; split <;> simp

end Sys2Proof.Machine
end

