-- ==== Sys2Proof/Laws/Fire.lean ====
section
/-! SUPPORT. The frames of the fire unit's changes: the fields that an evaluation leaves as they are. -/

namespace Sys2Proof.Machine

/-- A property of the state that a step keeps is kept by the step's fold. -/
theorem foldl_keeps {α β : Type} (g : State → β) (f : State → α → State) (h : ∀ t x, g (f t x) = g t) (l : List α) (s : State) :
    g (l.foldl f s) = g s := by
  induction l generalizing s with
  | nil => rfl
  | cons x l ih => rw [List.foldl_cons, ih, h]

@[simp] theorem State.withdrawOffers_pins (s : State) : (s.withdrawOffers).pins = s.pins := by
  simp only [State.withdrawOffers, State.emitAll_pins]
  rw [foldl_keeps (fun t => t.pins) _ (fun t e => State.queueWithdraw_pins t e), foldl_keeps (fun t => t.pins)]
  intro t e
  simp
@[simp] theorem State.withdrawOffers_request (s : State) : (s.withdrawOffers).request = s.request := by
  simp only [State.withdrawOffers, State.emitAll_request]
  rw [foldl_keeps (fun t => t.request) _ (fun t e => State.queueWithdraw_request t e), foldl_keeps (fun t => t.request)]
  intro t e
  simp
@[simp] theorem State.withdrawOffers_dock (s : State) : (s.withdrawOffers).dock = s.dock := by
  simp only [State.withdrawOffers, State.emitAll_dock]
  rw [foldl_keeps (fun t => t.dock) _ (fun t e => State.queueWithdraw_dock t e), foldl_keeps (fun t => t.dock)]
  intro t e
  simp
@[simp] theorem State.withdrawOffers_conditioning (s : State) : (s.withdrawOffers).conditioning = s.conditioning := by
  simp only [State.withdrawOffers, State.emitAll_conditioning]
  rw [foldl_keeps (fun t => t.conditioning) _ (fun t e => State.queueWithdraw_conditioning t e), foldl_keeps (fun t => t.conditioning)]
  intro t e
  simp
@[simp] theorem State.withdrawOffers_climate (s : State) : (s.withdrawOffers).climate = s.climate := by
  simp only [State.withdrawOffers, State.emitAll_climate]
  rw [foldl_keeps (fun t => t.climate) _ (fun t e => State.queueWithdraw_climate t e), foldl_keeps (fun t => t.climate)]
  intro t e
  simp
@[simp] theorem State.withdrawOffers_fire (s : State) : (s.withdrawOffers).fire = s.fire := by
  simp only [State.withdrawOffers, State.emitAll_fire]
  rw [foldl_keeps (fun t => t.fire) _ (fun t e => State.queueWithdraw_fire t e), foldl_keeps (fun t => t.fire)]
  intro t e
  simp
@[simp] theorem State.withdrawOffers_now (s : State) : (s.withdrawOffers).now = s.now := by
  simp only [State.withdrawOffers, State.emitAll_now]
  rw [foldl_keeps (fun t => t.now) _ (fun t e => State.queueWithdraw_now t e), foldl_keeps (fun t => t.now)]
  intro t e
  simp
@[simp] theorem State.withdrawOffers_free (s : State) : (s.withdrawOffers).free = s.free := by
  simp only [State.withdrawOffers, State.emitAll_free]
  rw [foldl_keeps (fun t => t.free) _ (fun t e => State.queueWithdraw_free t e), foldl_keeps (fun t => t.free)]
  intro t e
  simp
@[simp] theorem State.withdrawOffers_pending (s : State) : (s.withdrawOffers).pending = s.pending := by
  simp only [State.withdrawOffers, State.emitAll_pending]
  rw [foldl_keeps (fun t => t.pending) _ (fun t e => State.queueWithdraw_pending t e), foldl_keeps (fun t => t.pending)]
  intro t e
  simp

@[simp] theorem State.enterConfirmation_pins (s : State) : (s.enterConfirmation).pins = s.pins := by simp only [State.enterConfirmation]; simp
@[simp] theorem State.enterConfirmation_request (s : State) : (s.enterConfirmation).request = s.request := by simp only [State.enterConfirmation]; simp
@[simp] theorem State.enterConfirmation_conditioning (s : State) : (s.enterConfirmation).conditioning = s.conditioning := by simp only [State.enterConfirmation]; simp
@[simp] theorem State.enterConfirmation_now (s : State) : (s.enterConfirmation).now = s.now := by simp only [State.enterConfirmation]; simp
@[simp] theorem State.enterConfirmation_free (s : State) : (s.enterConfirmation).free = s.free := by simp only [State.enterConfirmation]; simp
@[simp] theorem State.enterConfirmation_pending (s : State) : (s.enterConfirmation).pending = s.pending := by simp only [State.enterConfirmation]; simp

@[simp] theorem State.enterAlarm_pins (s : State) : (s.enterAlarm).pins = s.pins := by simp [State.enterAlarm]
@[simp] theorem State.enterAlarm_request (s : State) : (s.enterAlarm).request = s.request := by simp [State.enterAlarm]
@[simp] theorem State.enterAlarm_custody (s : State) : (s.enterAlarm).custody = s.custody := by simp [State.enterAlarm]
@[simp] theorem State.enterAlarm_dock (s : State) : (s.enterAlarm).dock = s.dock := by simp [State.enterAlarm]
@[simp] theorem State.enterAlarm_conditioning (s : State) : (s.enterAlarm).conditioning = s.conditioning := by simp [State.enterAlarm]
@[simp] theorem State.enterAlarm_transfer (s : State) : (s.enterAlarm).transfer = s.transfer := by simp [State.enterAlarm]
@[simp] theorem State.enterAlarm_line (s : State) : (s.enterAlarm).line = s.line := by simp [State.enterAlarm]
@[simp] theorem State.enterAlarm_now (s : State) : (s.enterAlarm).now = s.now := by simp [State.enterAlarm]
@[simp] theorem State.enterAlarm_free (s : State) : (s.enterAlarm).free = s.free := by simp [State.enterAlarm]
@[simp] theorem State.enterAlarm_pending (s : State) : (s.enterAlarm).pending = s.pending := by simp [State.enterAlarm]

@[simp] theorem State.evaluate_pins (s : State) : (s.evaluate).pins = s.pins := by unfold State.evaluate; (repeat' split) <;> simp
@[simp] theorem State.evaluate_request (s : State) : (s.evaluate).request = s.request := by unfold State.evaluate; (repeat' split) <;> simp
@[simp] theorem State.evaluate_conditioning (s : State) : (s.evaluate).conditioning = s.conditioning := by unfold State.evaluate; (repeat' split) <;> simp
@[simp] theorem State.evaluate_now (s : State) : (s.evaluate).now = s.now := by unfold State.evaluate; (repeat' split) <;> simp
@[simp] theorem State.evaluate_free (s : State) : (s.evaluate).free = s.free := by unfold State.evaluate; (repeat' split) <;> simp
@[simp] theorem State.evaluate_pending (s : State) : (s.evaluate).pending = s.pending := by unfold State.evaluate; (repeat' split) <;> simp

@[simp] theorem State.judgeSwitches_pins (s : State) : (s.judgeSwitches).pins = s.pins := by unfold State.judgeSwitches; (repeat' split) <;> simp
@[simp] theorem State.judgeSwitches_request (s : State) : (s.judgeSwitches).request = s.request := by unfold State.judgeSwitches; (repeat' split) <;> simp
@[simp] theorem State.judgeSwitches_conditioning (s : State) : (s.judgeSwitches).conditioning = s.conditioning := by unfold State.judgeSwitches; (repeat' split) <;> simp
@[simp] theorem State.judgeSwitches_now (s : State) : (s.judgeSwitches).now = s.now := by unfold State.judgeSwitches; (repeat' split) <;> simp
@[simp] theorem State.judgeSwitches_free (s : State) : (s.judgeSwitches).free = s.free := by unfold State.judgeSwitches; (repeat' split) <;> simp
@[simp] theorem State.judgeSwitches_pending (s : State) : (s.judgeSwitches).pending = s.pending := by unfold State.judgeSwitches; (repeat' split) <;> simp

@[simp] theorem State.inputSurvey_pins (s : State) : (s.inputSurvey).pins = s.pins := by simp [State.inputSurvey]
@[simp] theorem State.inputSurvey_request (s : State) : (s.inputSurvey).request = s.request := by simp [State.inputSurvey]
@[simp] theorem State.inputSurvey_conditioning (s : State) : (s.inputSurvey).conditioning = s.conditioning := by simp [State.inputSurvey]
@[simp] theorem State.inputSurvey_now (s : State) : (s.inputSurvey).now = s.now := by simp [State.inputSurvey]
@[simp] theorem State.inputSurvey_free (s : State) : (s.inputSurvey).free = s.free := by simp [State.inputSurvey]
@[simp] theorem State.inputSurvey_pending (s : State) : (s.inputSurvey).pending = s.pending := by simp [State.inputSurvey]

end Sys2Proof.Machine
end

