-- ==== Sys2Proof/Laws/Tables.lean ====
section
/-! SUPPORT. Tables found by identifier: the order of identifiers is a strict linear order, the operations keep the canonical
form, and what is read after each. -/

namespace Sys2Proof.Machine

/-! ### The order of identifiers -/

theorem identLt_irrefl (a : Ident) : identLt a a = false := by
  induction a with
  | nil => rfl
  | cons x a ih => simpa [identLt] using ih

theorem identLt_trans {a b c : Ident} (hab : identLt a b = true) (hbc : identLt b c = true) : identLt a c = true := by
  induction a generalizing b c with
  | nil =>
    cases b with
    | nil => cases hab
    | cons y b =>
      cases c with
      | nil => cases hbc
      | cons z c => rfl
  | cons x a ih =>
    cases b with
    | nil => cases hab
    | cons y b =>
      cases c with
      | nil => cases hbc
      | cons z c =>
        simp only [identLt] at hab hbc ⊢
        split at hab <;> split at hbc <;> simp_all
        · exact ih hab hbc
        · split
          · subst_vars; omega
          · omega

theorem identLt_total {a b : Ident} (hne : a ≠ b) (hab : identLt a b = false) : identLt b a = true := by
  induction a generalizing b with
  | nil =>
    cases b with
    | nil => exact absurd rfl hne
    | cons y b => cases hab
  | cons x a ih =>
    cases b with
    | nil => rfl
    | cons y b =>
      simp only [identLt] at hab ⊢
      by_cases hxy : x = y
      · subst hxy
        simp only [if_true] at hab ⊢
        exact ih (fun h => hne (by rw [h])) hab
      · rw [if_neg hxy] at hab
        rw [if_neg (Ne.symm hxy)]
        have hx : x.toNat ≠ y.toNat := fun h => hxy (BitVec.eq_of_toNat_eq h)
        simp only [decide_eq_false_iff_not, decide_eq_true_eq] at hab ⊢
        omega

theorem identLt_ne {a b : Ident} (h : identLt a b = true) : a ≠ b := by
  rintro rfl
  rw [identLt_irrefl] at h
  cases h

variable {α : Type} (key : α → Ident)

/-! ### The canonical form -/

/-- A table is sorted when each item stands before all later ones. -/
theorem sortedBy_iff_pairwise (l : List α) :
    sortedBy key l = true ↔ l.Pairwise (fun x y => identLt (key x) (key y) = true) := by
  induction l with
  | nil => simp [sortedBy]
  | cons x l ih =>
    cases l with
    | nil => simp [sortedBy]
    | cons y l =>
      rw [List.pairwise_cons, ← ih]
      simp only [sortedBy, Bool.and_eq_true]
      refine ⟨fun ⟨h, hs⟩ => ⟨?_, hs⟩, fun ⟨h, hs⟩ => ⟨h y (by simp), hs⟩⟩
      intro z hz
      rcases List.mem_cons.1 hz with rfl | hz
      · exact h
      · exact identLt_trans h ((List.pairwise_cons.1 (ih.1 hs)).1 z hz)

theorem mem_putBy {item x : α} {l : List α} (h : x ∈ putBy key item l) : x = item ∨ x ∈ l := by
  induction l with
  | nil => simpa [putBy] using h
  | cons y l ih =>
    simp only [putBy] at h
    split at h
    · simp at h; tauto
    · split at h
      · simp at h; simp; tauto
      · rcases List.mem_cons.1 h with rfl | h
        · simp
        · rcases ih h with h | h <;> simp [h]

theorem mem_putBy_self (item : α) (l : List α) : item ∈ putBy key item l := by
  induction l with
  | nil => simp [putBy]
  | cons y l ih =>
    simp only [putBy]
    split
    · simp
    · split
      · simp
      · exact List.mem_cons_of_mem _ ih

/-- Putting an item keeps the table sorted. -/
theorem sortedBy_putBy {item : α} {l : List α} (h : sortedBy key l = true) : sortedBy key (putBy key item l) = true := by
  rw [sortedBy_iff_pairwise] at h ⊢
  induction l with
  | nil => simp [putBy]
  | cons y l ih =>
    rw [List.pairwise_cons] at h
    simp only [putBy]
    split
    · rename_i heq
      rw [List.pairwise_cons]
      exact ⟨fun z hz => heq ▸ h.1 z hz, h.2⟩
    · rename_i hne
      split
      · rename_i hlt
        rw [List.pairwise_cons, List.pairwise_cons]
        refine ⟨fun z hz => ?_, h⟩
        rcases List.mem_cons.1 hz with rfl | hz
        · exact hlt
        · exact identLt_trans hlt (h.1 z hz)
      · rename_i hlt
        rw [List.pairwise_cons]
        refine ⟨fun z hz => ?_, ih h.2⟩
        rcases mem_putBy key hz with rfl | hz
        · exact identLt_total (Ne.symm hne) (by simpa using hlt)
        · exact h.1 z hz

/-- Erasing an item keeps the table sorted. -/
theorem sortedBy_eraseBy {l : List α} (id : Ident) (h : sortedBy key l = true) : sortedBy key (eraseBy key id l) = true := by
  rw [sortedBy_iff_pairwise] at h ⊢
  exact h.filter _

/-- A change of the items that keeps every identifier keeps the table sorted. -/
theorem sortedBy_map {l : List α} (f : α → α) (hf : ∀ x, key (f x) = key x) (h : sortedBy key l = true) :
    sortedBy key (l.map f) = true := by
  rw [sortedBy_iff_pairwise] at h ⊢
  rw [List.pairwise_map]
  simpa [hf] using h

/-- A change that keeps every identifier or deletes the item keeps the table sorted. -/
theorem sortedBy_filterMap {l : List α} (f : α → Option α) (hf : ∀ x y, f x = some y → key y = key x)
    (h : sortedBy key l = true) : sortedBy key (l.filterMap f) = true := by
  rw [sortedBy_iff_pairwise] at h ⊢
  rw [List.pairwise_filterMap]
  refine h.imp ?_
  intro x y hxy a ha b hb
  rw [hf x a ha, hf y b hb]
  exact hxy

/-! ### Reading -/

/-- The item found under an identifier has it. -/
theorem findBy_key {id : Ident} {l : List α} {x : α} (h : findBy key id l = some x) : key x = id := by
  simpa using List.find?_some h

theorem findBy_mem {id : Ident} {l : List α} {x : α} (h : findBy key id l = some x) : x ∈ l := List.mem_of_find?_eq_some h

theorem findBy_eq_none {id : Ident} {l : List α} : findBy key id l = none ↔ ∀ x ∈ l, key x ≠ id := by
  simp [findBy]

theorem findBy_cons (id : Ident) (x : α) (l : List α) :
    findBy key id (x :: l) = if key x = id then some x else findBy key id l := by
  simp only [findBy, List.find?_cons]
  split <;> simp_all

/-- The item just put is found. -/
theorem findBy_putBy_same (item : α) (l : List α) : findBy key (key item) (putBy key item l) = some item := by
  induction l with
  | nil => simp [putBy, findBy_cons]
  | cons y l ih =>
    simp only [putBy]
    split
    · simp [findBy_cons]
    · split
      · simp [findBy_cons]
      · rename_i hne _
        rw [findBy_cons, if_neg hne, ih]

/-- Every other identifier reads as before. -/
theorem findBy_putBy_other {item : α} {id : Ident} (h : id ≠ key item) (l : List α) :
    findBy key id (putBy key item l) = findBy key id l := by
  induction l with
  | nil => simp [putBy, Ne.symm h, findBy]
  | cons y l ih =>
    simp only [putBy]
    split
    · rename_i heq
      rw [findBy_cons, findBy_cons, if_neg (Ne.symm h), if_neg (by rw [heq]; exact Ne.symm h)]
    · split
      · rw [findBy_cons, if_neg (Ne.symm h)]
      · rw [findBy_cons, findBy_cons, ih]

/-- The identifier erased is found no more. -/
theorem findBy_eraseBy_same (id : Ident) (l : List α) : findBy key id (eraseBy key id l) = none := by
  rw [findBy_eq_none]
  intro x hx
  simpa using (List.mem_filter.1 hx).2

/-- Erasing leaves every other identifier as it reads. -/
theorem findBy_eraseBy_other {id other : Ident} (h : other ≠ id) (l : List α) :
    findBy key other (eraseBy key id l) = findBy key other l := by
  induction l with
  | nil => rfl
  | cons x l ih =>
    simp only [eraseBy] at ih
    by_cases hx : key x = id
    · rw [findBy_cons, if_neg (by rw [hx]; exact Ne.symm h)]
      simpa [eraseBy, hx] using ih
    · simp only [eraseBy, List.filter_cons, hx, ne_eq, not_false_eq_true, decide_true, if_true]
      rw [findBy_cons, findBy_cons, ih]

/-- A change that keeps every identifier is read through. -/
theorem findBy_map (f : α → α) (hf : ∀ x, key (f x) = key x) (id : Ident) (l : List α) :
    findBy key id (l.map f) = (findBy key id l).map f := by
  induction l with
  | nil => rfl
  | cons x l ih => rw [List.map_cons, findBy_cons, findBy_cons, hf, ih]; split <;> rfl

/-- In a sorted table an item is the one found under its identifier. -/
theorem findBy_of_mem {l : List α} (hs : sortedBy key l = true) {x : α} (hx : x ∈ l) : findBy key (key x) l = some x := by
  rw [sortedBy_iff_pairwise] at hs
  induction l with
  | nil => cases hx
  | cons y l ih =>
    rw [List.pairwise_cons] at hs
    rw [findBy_cons]
    rcases List.mem_cons.1 hx with rfl | hx
    · simp
    · rw [if_neg (identLt_ne (hs.1 x hx)), ih hs.2 hx]

/-- Putting an item in place of the one that has its identifier, in a sorted table. -/
theorem putBy_replace {pre post : List α} {x item : α} (hs : sortedBy key (pre ++ x :: post) = true) (hk : key item = key x) :
    putBy key item (pre ++ x :: post) = pre ++ item :: post := by
  rw [sortedBy_iff_pairwise] at hs
  induction pre with
  | nil => simp [putBy, hk]
  | cons y pre ih =>
    rw [List.cons_append, List.pairwise_cons] at hs
    have hlt := hs.1 x (by simp)
    rw [List.cons_append, putBy, if_neg (by rw [hk]; exact identLt_ne hlt), if_neg, ih hs.2, List.cons_append]
    rw [hk]
    intro h
    have := identLt_trans hlt h
    rw [identLt_irrefl] at this
    cases this

/-- Putting an item under an identifier that a sorted table has keeps its length. -/
theorem length_putBy_of_found {l : List α} {item x : α} (hs : sortedBy key l = true) (h : findBy key (key item) l = some x) :
    (putBy key item l).length = l.length := by
  obtain ⟨pre, post, rfl⟩ := List.append_of_mem (findBy_mem key h)
  rw [putBy_replace key hs (findBy_key key h).symm]
  simp

/-- Putting an item adds at most one. -/
theorem length_putBy_le (item : α) (l : List α) : (putBy key item l).length ≤ l.length + 1 := by
  induction l with
  | nil => simp [putBy]
  | cons x l ih =>
    simp only [putBy]
    split
    · simp
    · split
      · simp
      · simpa using ih

end Sys2Proof.Machine
end

