-- ==== Sys2Proof/Laws/Settle.lean ====
section
/-! SUPPORT. Settling: a settled state stays as it is, and what a command does on a settled state. -/

namespace Sys2Proof.Machine

/-! ### What is settled -/

/-- The five conditions of a settled state. -/
theorem settled_iff (s : State) : s.settled = true ↔
    s.expiredManifests = [] ∧
      s.transfer.entries.filter TransferEntry.overdue = [] ∧ s.transfer.entries.filter TransferEntry.abandoned = [] ∧
      s.line.superframeDue = false ∧ s.gonePeers = [] := by
  simp only [State.settled, Bool.and_eq_true, List.isEmpty_iff, Bool.not_eq_true', and_assoc]

/-- With nothing due, settling changes nothing. -/
theorem settle_of_settled {s : State} (h : s.settled = true) : s.settle = s := by
  obtain ⟨h3, h4, h5, h6, h7⟩ := (settled_iff s).1 h
  have r3 : s.settleManifests = s := by simp [State.settleManifests, h3, repeatStep]
  have r4 : s.settleTransits = s := by simp only [State.settleTransits, h4]; rfl
  have r5 : s.settleInbound = s := by simp only [State.settleInbound, h5]; rfl
  have r6 : s.superframeStep = s := by simp [State.superframeStep, h6]
  have r7 : s.settlePeers = s := by simp [State.settlePeers, h7, repeatStep]
  simp only [State.settle, r3, r4, r5, r6, r7]

/-- On a settled state a command has its effect at once. -/
theorem taken_of_settled {s : State} (h : s.settled = true) (f : State → State) : taken s f = .next (f s) := by
  rw [taken, settle_of_settled h]

/-! ### The accumulator and the rollover -/

/-- A rollover is what the terms of the claims call it (R88, R89). -/
theorem rollover_eq_rolledOver (s : State) : s.rollover = s.rolledOver := by
  have hl : (fun r : Record => match r.st with
      | .conditioning p h =>
        if h ≤ 1 then { r with st := .shelved p, stateMinute := s.minute } else { r with st := .conditioning p (h - 1) }
      | _ => r) = lowerHold s.minute := by
    funext r; rcases r with ⟨_, st, _, _, _⟩; cases st <;> rfl
  have he : s.releasedHolds.map s.completeEvent = s.custody.register.filterMap fun r : Record =>
      match r.st with
      | .conditioning p h => if h ≤ 1 then some (Event.conditioningComplete r.id p r.exposure s.minute) else none
      | _ => none := by
    rw [State.releasedHolds]
    induction s.custody.register with
    | nil => rfl
    | cons r l ih =>
      rcases r with ⟨a, b, c, d, e⟩
      cases b <;> simp_all [Record.holdWithin, List.filter_cons, List.filterMap_cons]
      split <;> simp_all [State.completeEvent, RecState.position]
  rw [State.rollover, he, ← hl]; rfl

/-- A running second short of the minute raises the accumulator and does nothing else (R87). -/
theorem runningSecond_within {s : State} (h : s.conditioning.accumulator < 59) :
    s.runningSecond = { s with conditioning := ⟨s.conditioning.accumulator + 1⟩ } := by
  rw [State.runningSecond, if_pos (by simp only [rolloverSeconds]; omega)]; rfl

/-- The running second that completes the minute is the rollover (R88). -/
theorem runningSecond_completes {s : State} (h : 59 ≤ s.conditioning.accumulator) : s.runningSecond = s.rolledOver := by
  rw [State.runningSecond, if_neg (by simp only [rolloverSeconds]; omega), rollover_eq_rolledOver]

/-! ### The request at the head -/

/-- The request that stands ready is the head request. -/
theorem headRequest_of_ready {s : State} {r : Request} {rest : List Request} (h : s.ready r rest) : s.headRequest = some r := by
  obtain ⟨-, h2, h3, h4⟩ := h
  simp [State.headRequest, State.answerRoom, queueDepth, h2, h3, h4]

/-- A ready request of the row's kind that passes the request unit's checks goes to its owner, and is answered. -/
theorem takeRequest_of_ready {s : State} {r : Request} {rest : List Request} (h : s.ready r rest) {kind : RequestKind}
    (hp : s.passes kind) {fits : List Byte → Bool} {owner : Request → State → Reply}
    (hk : requestKindOf r.payload = some kind) (hf : fits (requestFields r.payload) = true)
    (hw : layoutWhole kind (requestFields r.payload) = true) :
    s.takeRequest kind fits owner =
      (owner r s.popRequest).state.queueAnswer (answerFor (kindByte kind) r (owner r s.popRequest)) := by
  have hj : judgeRequest kind owner r s.popRequest = owner r s.popRequest := by
    have hc : s.popRequest.configured = s.configured := rfl
    have hkey : s.popRequest.pins = s.pins := rfl
    obtain ⟨h1, h2⟩ := hp
    rw [judgeRequest, if_neg, if_neg, if_neg]
    · simp [hw]
    · rw [hkey]
      cases hcu : kind.custodial <;> simp_all
    · rw [hc]
      rcases h1 with h1 | rfl | rfl <;> simp_all
  simp only [State.takeRequest, headRequest_of_ready h, hk, hf, and_self, if_true, hj, kindByte]

/-- The state once the ready request is removed. -/
theorem popRequest_of_ready {s : State} {r : Request} {rest : List Request} (h : s.ready r rest) :
    s.popRequest = { s with line := { s.line with requests := rest } } := by
  obtain ⟨-, -, -, h4⟩ := h
  simp [State.popRequest, State.withLine, h4]

/-- The transfer message that stands ready is taken by its row. -/
theorem takePeer_of_ready {s : State} {m : PeerIn} {rest : List PeerIn} (h : s.peerReady m rest) {kind : PeerKind}
    {act : PeerIn → State → State} (hk : m.kind = kind) (hd : m.dest ≤ 15) : s.takePeer kind act = act m (s.peerTaken rest) := by
  obtain ⟨-, h2, h3⟩ := h
  simp [State.takePeer, State.peerRoom, peerOutDepth, h2, h3, hk, hd, State.popPeer, State.peerTaken, State.withLine]

end Sys2Proof.Machine
end

