-- ==== Sys2Proof/Laws/Specs.lean ====
section
/-! SUPPORT. What each shared operation does, said once: events, requests and messages taken, the end of a session, a change of
the sequence state, the withdrawal of offers, and the judgement of the neighbour-alert flag. -/

namespace Sys2Proof.Machine

/-! ### Bytes and tables -/

/-- Bytes at the front of a run, read back as a slice. -/
theorem slice_append (id rest : List Byte) (n : Nat) (h : id.length = n) : slice (id ++ rest) 0 n = id := by
  subst h; simp [slice]

/-- A byte behind a run of known length. -/
theorem byteAt_append (id : List Byte) (rest : List Byte) (n k : Nat) (h : id.length = n) : byteAt (id ++ rest) (n + k) =
    byteAt rest k := by
  subst h; simp [byteAt, List.getD_eq_getElem?_getD, List.getElem?_append_right]

/-- The length of a number's bytes. -/
theorem toBytes_length (n k : Nat) : (toBytes n k).length = n := by induction n generalizing k <;> simp_all [toBytes]

/-- Two bytes spell the number they were written from. -/
theorem ofBytes2 (k : Nat) (h : k < 65536) : ofBytes (toBytes 2 k) = k := by
  simp [toBytes, ofBytes, Nat.shiftRight_eq_div_pow]; omega

/-- A table whose first number is 1. -/
theorem entryAt_one {α} (l : List α) (n : Nat) (h : 1 ≤ n) : entryAt 1 l n = l[n-1]? := by
  simp [entryAt, Nat.not_lt.2 h]

/-- ALARM-1 or later, by the code of the state. -/
theorem inAlarm_iff (q : Seq) : q.inAlarm = true ↔ 2 ≤ seqCode q := by simp [Seq.inAlarm]

/-- A well-formed identifier has ten characters. -/
theorem identOk_len {id} (h : identOk id = true) : id.length = 10 := by simp [identOk] at h; exact h.1

/-! ### Events -/

/-- An event changes the notice unit alone. -/
theorem emit_withNotices (s : State) (e : Event) : s.emit e = s.withNotices (s.emit e).notices := by
  simp only [State.emit]; split <;> rfl

/-- What an event leaves in the notice unit depends on the request unit, the notice unit and the zone clock alone. -/
theorem emit_notices_congr (s t : State) (e : Event) (h1 : s.request = t.request) (h2 : s.notices = t.notices)
  (h3 : s.custody.zoneClock = t.custody.zoneClock) : (s.emit e).notices = (t.emit e).notices := by
  have hr : s.records e.source = t.records e.source := by
    simp only [State.records, State.configured, State.level, State.cfg, h1]; rfl
  simp only [State.emit, hr, State.setNotice, State.pendingNotice, h2, h3]
  split
  · rfl
  · exact h2

/-- A recorded event on its own source. -/
theorem emit_pendingNotice_self (s : State) (e : Event) (hl : s.notices.pending.length = 16) (h : s.records e.source = true) :
   (s.emit e).pendingNotice e.source = some (recordEvent s.custody.zoneClock e (s.pendingNotice e.source)) := by
  have hsrc : e.source < 16 := by cases e <;> simp [Event.source]
  simp only [State.emit, h, if_true]
  simp only [State.pendingNotice, State.setNotice, State.withNotices]
  rw [List.getElem?_set_self (by omega)]; rfl

/-- An event leaves every other source. -/
theorem emit_pendingNotice_other (s : State) (e : Event) (n : Nat) (hn : n ≠ e.source) : (s.emit e).pendingNotice n =
    s.pendingNotice n := by
  simp only [State.emit]; split
  · simp only [State.pendingNotice, State.setNotice, State.withNotices]
    rw [List.getElem?_set_ne (Ne.symm hn)]
  · rfl

/-! ### Requests and messages -/

/-- A ready request that passes the checks: the owner's reply on the state without it, and its one answer. -/
theorem taken_reply {s : State} {r : Request} {rest : List Request} (h : s.ready r rest) (kind : RequestKind) (hp : s.passes kind)
    {fits : List Byte → Bool} {owner : Request → State → Reply} (hk : requestKindOf r.payload = some kind)
    (hf : fits (requestFields r.payload) = true) (hw : layoutWhole kind (requestFields r.payload) = true) (reply : Reply)
    (ho : owner r { s with line := { s.line with requests := rest } } = reply) :
    taken s (fun t => t.takeRequest kind fits owner) = .next (reply.state.queueAnswer (answerFor (kindByte kind) r reply)) := by
  rw [taken_of_settled h.1, takeRequest_of_ready h hp hk hf hw, popRequest_of_ready h]
  subst ho
  rfl

/-- A ready transfer message: what its row does on the state without it. -/
theorem taken_peer {s : State} {m : PeerIn} {rest : List PeerIn} (h : s.peerReady m rest) {kind : PeerKind}
    {act : PeerIn → State → State} (hk : m.kind = kind) (hd : m.dest ≤ 15) :
    taken s (fun t => t.takePeer kind act) = .next (act m (s.peerTaken rest)) := by
  rw [taken_of_settled h.1, takePeer_of_ready h hk hd]

/-- An identifier and a number as a TAKE, WITHDRAW or ARRIVED carries them. -/
theorem transferOf_append (id : Ident) (n : Byte) (h : identOk id = true) : transferOf (id ++ [n]) = some (id, n.toNat) := by
  have hl := identOk_len h
  have e1 : slice (id ++ [n]) 0 10 = id := slice_append _ _ _ hl
  have e2 : byteAt (id ++ [n]) 10 = n.toNat := by
    rw [show (10:Nat) = 10 + 0 from rfl, byteAt_append id _ 10 0 hl]; simp [byteAt]
  simp [transferOf, e1, e2, hl, h]

/-! ### The dock -/

/-- A record reverted, by its state. -/
theorem revertRecord_eq (minute : Nat) : (fun r : Record => match r.st with
        | .loading p m => { r with st := .reserved p m, stateMinute := minute }
        | .returning c => { r with st := .out c, stateMinute := minute }
        | _ => r) = revertRecord minute := by
  funext r; rcases r with ⟨a,b,c,d,e⟩; cases b <;> rfl

/-- Reopening the bound manifest changes the manifest table alone. -/
theorem reopenManifest_custody (s : State) : s.reopenManifest.custody = { s.custody with manifests :=
    s.reopenManifest.custody.manifests } := by
  simp only [State.reopenManifest]; split
  · rfl
  · split <;> rfl

/-- The manifests once the bound one is OPEN again. -/
theorem reopenManifest_manifest (s : State) (n : Nat) : s.reopenManifest.manifest? n = if s.dock.manifest =
    some n then (s.manifest? n).map (fun m => { m with state := .waiting }) else s.manifest? n := by
  cases h : s.dock.manifest with
  | none => simp [State.reopenManifest, h]
  | some k =>
    cases hm : s.manifest? k with
    | none =>
      have : s.reopenManifest = s := by simp [State.reopenManifest, h, hm]
      rw [this]
      by_cases hk : k = n
      · subst hk; simp [hm]
      · simp [hk]
    | some m =>
      have : s.reopenManifest = s.setManifest k (some { m with state := .waiting }) := by simp [State.reopenManifest, h, hm]
      rw [this]
      have hk1 : 1 ≤ k := by
        rcases Nat.lt_or_ge k 1 with h | h
        · simp [State.manifest?, entryAt, h] at hm
        · exact h
      have hm' := hm
      simp only [State.manifest?, entryAt_one _ _ hk1] at hm'
      simp only [State.setManifest, State.manifest?, State.setManifests, State.withCustody, setEntry, Nat.not_lt.2 hk1,
          if_false]
      by_cases hk : k = n
      · subst hk
        rw [entryAt_one _ _ hk1, entryAt_one _ _ hk1, hm']
        have : k - 1 < s.custody.manifests.length := by
          by_contra hc; rw [List.getElem?_eq_none (by omega)] at hm'; simp at hm'
        simp [this]
      · simp only [Option.some.injEq, hk, if_false]
        simp only [entryAt]
        split
        · rfl
        · rw [List.getElem?_set_ne (by omega)]

/-- All that the end of a session before its commit point does, a removal of the case apart. -/
theorem endUncommitted_spec (s : State) (o : SessionOutcome) (ho : o ≠ .caseRemoved) (hp : s.dock.pendingAbort = none) :
   s.endedUncommitted o s.dock.outstanding (s.endUncommitted o) := by
  have hrep : ∀ e, (s.revertSession.emit e).dock = { s.dock with scans := [] } := by intro e; simp [State.revertSession]
  have hcust : (s.endUncommitted o).custody = s.revertSession.custody := by
    simp only [State.endUncommitted]; cases o <;> first | (exact absurd rfl ho) | simp
  have hrc : s.revertSession.custody = { s.custody with
      manifests := s.reopenManifest.custody.manifests, register := s.custody.register.map (revertRecord s.minute) } := by
    simp only [State.revertSession, State.withDock_custody, State.setRegister, State.withCustody_custody]
    generalize hx : s.reopenManifest = x
    have := reopenManifest_custody s; rw [hx] at this; rw [this]
  have key : s.endUncommitted o = ((s.revertSession.emit (.sessionEnded
      { s.report o s.dock.scans.length with reverted := some s.dock.scans.length })).withDock
     (({ s.dock with scans := [] } : DockUnit).cleared .refused (some s.now))).abort o := by
    simp only [State.endUncommitted, hrep]
  have hnot : (s.endUncommitted o).notices = (s.emit (.sessionEnded
      { s.report o s.dock.scans.length with reverted := some s.dock.scans.length })).notices := by
    rw [key]; simp only [State.abort_notices, State.withDock_notices]
    apply emit_notices_congr
    · simp
    · simp
    · rw [hrc]
  have hdock : (s.endUncommitted o).dock = { idleDock s.dock.number with
      outstanding := s.dock.outstanding,
      pendingAbort := if s.dock.outstanding.isSome then some o else none,
      indicator := .refused,
      displayTimer := some s.now,
      lastFrame := if s.dock.outstanding.isSome then s.dock.lastFrame else some (.abort o),
      lastSentAt := if s.dock.outstanding.isSome then s.dock.lastSentAt else some s.now } := by
    rw [key]; simp only [State.abort]
    cases hout : s.dock.outstanding with
    | none =>
      simp only [State.withDock_dock, DockUnit.cleared, State.sendAbort, hp]
      simp [idleDock]
    | some x =>
      simp only [State.withDock_dock, DockUnit.cleared, hp]
      simp [idleDock]
  refine ⟨?_, ?_, ?_, hdock, hnot⟩
  · have : ∀ t : State, t.pins = s.pins → t.request = s.request → t.conditioning = s.conditioning → t.climate = s.climate →
      t.fire = s.fire → t.transfer = s.transfer → t.line = s.line → t.now = s.now → t.free = s.free → t.pending = s.pending →
          t = { s with custody := t.custody, dock := t.dock, notices := t.notices } := by
      rintro ⟨⟩ h1 h2 h3 h4 h5 h6 h7 h8 h9 h10; dsimp only at *; subst_vars; rfl
    apply this <;> simp
  · rw [hcust, hrc, ← revertRecord_eq]; try rfl
  · intro n
    have : (s.endUncommitted o).manifest? n = s.reopenManifest.manifest? n := by
      simp only [State.manifest?, hcust, hrc]
    rw [this, reopenManifest_manifest]

/-- An accepted answer in an outstanding exchange, within its time. -/
theorem hearCase_accepted {s : State} {o : Outstanding} (ho : s.dock.outstanding = some o) (hp : s.dock.pendingAbort = none) :
    ∀ f, s.now ≤ o.sentAt + 500 → caseFrameOk f = true → admits o.frame f = true → s.dock.session ≠ .idle →
      s.hearCase (some f) = ((s.withDock { s.dock with outstanding := none, faults := 0 }).actOn f).sendAtOnce := by
    intro f h0 h1 h2 h3
    have hlate : ¬o.sentAt + exchangeLimit < s.now := Nat.not_lt.2 h0
    simp only [State.hearCase, ho, hlate, h3, if_false, State.judgeAnswer, h1, h2, State.endExchange, hp]; rfl

/-- An answer that comes after the 500 ms of its exchange is discarded. -/
theorem hearCase_late {s : State} {o : Outstanding} (ho : s.dock.outstanding = some o) (h : o.sentAt + 500 < s.now)
    (answer : Option CaseFrame) : s.hearCase answer = s := by
  simp only [State.hearCase, ho, if_pos (show o.sentAt + exchangeLimit < s.now from h)]

/-- A time-out in a session: the exchange is over with a frame fault, and no frame follows in that step. -/
theorem answerTimesOut_session {s : State} {o : Outstanding} (ho : s.dock.outstanding = some o) (hp : s.dock.pendingAbort = none)
    (hs : s.dock.session ≠ .idle) : s.answerTimesOut = (s.withDock { s.dock with outstanding := none }).frameFault := by
  simp only [State.answerTimesOut, ho, hs, if_false, State.judgeAnswer, State.endExchange, hp]

/-- A probe's answer that comes late, or with no round in progress, is discarded. -/
theorem hearProbe_discarded (s : State) (bytes : List Byte)
    (h : ∀ round, s.climate.round = some round → s.answersLate round bytes = true) : s.hearProbe bytes = s := by
  simp only [State.hearProbe]
  split
  · rfl
  · rename_i round hr; rw [if_pos (h round hr)]

/-- An answer is late by its time, or by the probe it names. -/
theorem answersLate_iff (s : State) (round : PollRound) (bytes : List Byte) : s.answersLate round bytes = true ↔
    round.askedAt + 200 < s.now ∨ ∃ j, answeringProbe bytes = some j ∧ j ≠ round.asked ∧ j ∈ s.climate.late := by
  simp only [State.answersLate, probeLimit, Bool.or_eq_true]
  refine or_congr decide_eq_true_iff ?_
  cases answeringProbe bytes <;> simp

/-- The end of a polled probe's exchange: its record judged, its event held, and the next probe asked or the round ended. -/
theorem endProbe_polled {s : State} {round : PollRound} {p : ProbeRecord} (answer : Option Reading)
    (hk : s.polled round.asked = true) (hp : s.probe round.asked = some p) :
    s.endProbe round answer = (s.setProbe round.asked (p.judged s.climate.roundStart answer)).nextProbe round.asked
      (round.events ++ probeEvent round.asked p (p.judged s.climate.roundStart answer)) := by
  simp only [State.endProbe, hk, hp]

/-- The records put one after the other, found by identifier. -/
theorem find_foldl_putRecord (l : List Record) (s : State) (id : Ident) (hl : (l.map (·.id)).Nodup) :
   (l.foldl State.putRecord s).find id = match l.find? (fun r => decide (r.id =
       id)) with | some r => some r | none => s.find id := by
  induction l generalizing s with
  | nil => rfl
  | cons a l ih =>
    simp only [List.map_cons, List.nodup_cons] at hl
    rw [List.foldl_cons, ih _ hl.2, List.find?_cons]
    by_cases h : a.id = id
    · have : l.find? (fun r => decide (r.id = id)) = none := by
        rw [List.find?_eq_none]; intro x hx; simp; intro hxi; exact hl.1 (List.mem_map.2 ⟨x, hx, hxi.trans h.symm⟩)
      simp only [h, this, decide_true]
      subst h
      exact findBy_putBy_same (key := Record.id) _ _
    · simp only [h, decide_false]
      cases l.find? _ with
      | some x => rfl
      | none => exact findBy_putBy_other (key := Record.id) (fun e => h e.symm) _

/-! ### Climate and fire -/

/-- Forcing changes the climate unit alone. -/
theorem forceOutputs_withClimate (s : State) : s.forceOutputs = s.withClimate s.forceOutputs.climate := by
  simp only [State.forceOutputs]; split <;> rfl

/-- Outputs that are OFF while anything forces are left as they are. -/
theorem forceOutputs_off (s : State) (h : s.forcing = true → s.climate.humidify.on = false ∧ s.climate.dehumidify.on = false) :
    s.forceOutputs.climate = s.climate := by
  simp only [State.forceOutputs]; split
  · rename_i hf; obtain ⟨h1, h2⟩ := h hf; simp [ClimateOutput.turnOff, h1, h2]
  · rfl

/-- Forcing turns OFF each output that is ON, where a forcing condition holds. -/
theorem forceOutputs_climate (s : State) : s.forceOutputs.climate = s.climateForcedIn s := by
  simp only [State.forceOutputs, State.climateForcedIn]
  cases hf : s.forcing with
  | false => simp
  | true =>
    cases h1 : s.climate.humidify.on <;> cases h2 : s.climate.dehumidify.on <;> simp [ClimateOutput.turnOff, h1, h2]

/-- What a state with the same climate unit and clock has left of it, once outputs are forced where the same conditions hold. -/
theorem forceOutputs_climate_of (s u : State) (h1 : u.climate = s.climate) (h2 : u.now = s.now) :
    u.forceOutputs.climate = s.climateForcedIn u.forceOutputs := by
  have hz : u.forceOutputs.climate.zone = u.climate.zone := by simp only [State.forceOutputs]; split <;> rfl
  have hf : u.forceOutputs.forcing = u.forcing := by
    simp only [State.forcing, State.configured, State.forceOutputs_request, State.forceOutputs_fire, hz]
  rw [forceOutputs_climate]
  simp only [State.climateForcedIn, hf, h1, h2]

/-- All that a change of the sequence state does, the climate outputs apart. -/
theorem enterSeq_spec (s : State) (q : Seq) (c : FireCause) :
   s.enterSeq q c = ((s.withFire { (s.fire.inSeq q s.cfg s.now) with
       sounder := sounderFor q s.fire.generalSeen,
       damperClosed := damperFor q s.fire.neighbourAlert }).withClimate (s.enterSeq q c).climate).withNotices
     (s.emit (.fireState q s.fire.seq c s.alarmChannels s.faultChannels s.fire.callOperated s.fire.callLatch s.fire.holdOn
    s.fire.isolateOn s.fire.doorOpen s.fire.agentReady s.custody.zoneClock)).notices := by
  obtain ⟨E, hE⟩ : ∃ E : State, E = (s.withFire (s.fire.inSeq q s.cfg s.now)).refreshFireOutputs := ⟨_, rfl⟩
  obtain ⟨ev, hev⟩ : ∃ ev, ev = E.fireEvent s.fire.seq c := ⟨_, rfl⟩
  have e0 : s.enterSeq q c = (E.emit ev).forceOutputs := by subst hev hE; rfl
  have e1 := forceOutputs_withClimate (E.emit ev)
  have e2 := emit_withNotices E ev
  have e3 := emit_notices_congr E s ev (by subst hE; rfl) (by subst hE; rfl) (by subst hE; rfl)
  rw [e3] at e2
  have hev' : ev = (.fireState q s.fire.seq c s.alarmChannels s.faultChannels s.fire.callOperated s.fire.callLatch s.fire.holdOn
    s.fire.isolateOn s.fire.doorOpen s.fire.agentReady s.custody.zoneClock) := by subst hev hE; rfl
  rw [← hev', e0, e1]
  simp only [State.withClimate_climate]
  generalize (E.emit ev).forceOutputs.climate = X
  rw [e2]
  subst hE; rfl

/-- A change of the sequence state changes the fire unit, the climate outputs and the notices alone. -/
theorem enterSeq_afterSequence (s : State) (q : Seq) (c : FireCause) : s.enterSeq q c = s.afterSequence (s.enterSeq q c) := by
  have h : (s.enterSeq q c).climate = { s.climate with humidify := (s.enterSeq q c).climate.humidify, dehumidify :=
      (s.enterSeq q c).climate.dehumidify } := by
    simp only [State.enterSeq]
    generalize hE : State.emit _ _ = E
    have : E.climate = s.climate := by rw [← hE]; simp
    rw [← this]
    simp only [State.forceOutputs]; split <;> rfl
  have e := enterSeq_spec s q c
  generalize hn : (State.emit _ _).notices = nn at e
  have hh : s.enterSeq q c = ((s.withFire (s.enterSeq q c).fire).withClimate (s.enterSeq q c).climate).withNotices (s.enterSeq q c).notices := by
    conv => lhs; rw [e]
    rw [show (s.enterSeq q c).fire = _ from congrArg State.fire e, show (s.enterSeq q c).notices =
        _ from congrArg State.notices e]; rfl
  rw [h] at hh; exact hh

/-- The fire unit after a change of the sequence state. -/
theorem enterSeq_fire (s : State) (q c) : (s.enterSeq q c).fire = { s.fire with
          seq := q, release := decide (q = .discharge), pulse := if q = .discharge then some (s.now + 10000) else none,
              soak := if q = .soak then some (s.now + 1000 * s.cfg.soakTime) else none,
          countdown := if q = .preDischarge then some (s.now + 1000 * s.cfg.preDischarge) else none,
          sounder := sounderFor q s.fire.generalSeen,
          damperClosed := damperFor q s.fire.neighbourAlert } := by
  rw [enterSeq_spec]; rfl

/-- The climate unit after a change of the sequence state. -/
theorem enterSeq_climate (s : State) (q : Seq) (c : FireCause) : (s.enterSeq q c).climate = s.climateForcedIn (s.enterSeq q c) :=
  forceOutputs_climate_of s _ (by simp) (by simp)

/-- No entry is OFFERED once the offers are withdrawn. -/
theorem withdrawOffers_none (s : State) : ∀ e ∈ s.withdrawOffers.transfer.entries, e.isOffered = false := by
  have h1 : s.withdrawOffers.transfer =
      ((s.transfer.entries.filter TransferEntry.isOffered).foldl (fun t e => (t.restoreRecord e.id).eraseEntry e.id) s).transfer := by
    simp only [State.withdrawOffers, State.emitAll_transfer]
    rw [foldl_keeps (fun t => t.transfer) _ (fun t e => State.queueWithdraw_transfer t e)]
  have h2 : ∀ (l : List TransferEntry) (t : State),
      (∀ e ∈ (l.foldl (fun t e => (t.restoreRecord e.id).eraseEntry e.id) t).transfer.entries, e ∈ t.transfer.entries ∧
          ∀ x ∈ l, e.id ≠ x.id) := by
    intro l; induction l with
    | nil => intro t e he; exact ⟨he, by simp⟩
    | cons a l ih =>
      intro t e he
      obtain ⟨h, h'⟩ := ih _ e he
      have : ((t.restoreRecord a.id).eraseEntry a.id).transfer.entries = eraseBy TransferEntry.id a.id t.transfer.entries := by
        simp [State.eraseEntry, State.setEntries]
      rw [this, eraseBy, List.mem_filter] at h
      refine ⟨h.1, ?_⟩
      intro x hx
      rcases List.mem_cons.1 hx with rfl | hx
      · simpa using h.2
      · exact h' x hx
  intro e he
  rw [h1] at he
  obtain ⟨ha, hb⟩ := h2 _ _ e he
  cases ho : e.isOffered with
  | false => rfl
  | true => exact absurd rfl (hb e (List.mem_filter.2 ⟨ha, ho⟩))

/-- All that a judgement of the neighbour-alert flag does. -/
theorem judgeNeighbours_spec (s : State) : s.judgeNeighbours = s.afterFlag s.judgeNeighbours ∧
    s.judgeNeighbours.fire.neighbourAlert = !s.judgeNeighbours.alertHolders.isEmpty ∧
    (s.judgeNeighbours.fire.neighbourAlert = s.fire.neighbourAlert → s.judgeNeighbours = s) ∧ s.judgeNeighbours.fire.seq =
        s.fire.seq ∧ s.judgeNeighbours.fire.generalSeen = s.fire.generalSeen ∧
    (s.fire.sounder = sounderFor s.fire.seq s.fire.generalSeen → s.judgeNeighbours.fire.sounder =
        sounderFor s.fire.seq s.fire.generalSeen) ∧
    (s.fire.damperClosed = damperFor s.fire.seq s.fire.neighbourAlert → s.judgeNeighbours.fire.damperClosed =
        damperFor s.fire.seq s.judgeNeighbours.fire.neighbourAlert) := by
  by_cases h : (!s.alertHolders.isEmpty) = s.fire.neighbourAlert
  · have e : s.judgeNeighbours = s := by simp only [State.judgeNeighbours]; rw [if_pos h]
    rw [e]; refine ⟨rfl, h.symm, fun _ => rfl, rfl, rfl, fun h => h, fun h => h⟩
  · obtain ⟨set, hset⟩ : ∃ set, set = (s.withFire { s.fire with neighbourAlert :=
      !s.alertHolders.isEmpty }).refreshFireOutputs := ⟨_, rfl⟩
    have e : s.judgeNeighbours = (set.emit (.neighbourAlarm (!s.alertHolders.isEmpty) s.alertHolders s.custody.zoneClock)).forceOutputs := by simp only [State.judgeNeighbours]; rw [if_neg h, hset]
    have e2 : s.judgeNeighbours = ((set.withNotices s.judgeNeighbours.notices).withClimate { s.climate with
        humidify := s.judgeNeighbours.climate.humidify,
        dehumidify := s.judgeNeighbours.climate.dehumidify }) := by
      rw [e]; generalize hq : Event.neighbourAlarm _ _ _ = ev
      have e9 := emit_withNotices set ev; generalize (set.emit ev).notices = nn at e9; rw [e9,
          hset]; simp only [State.forceOutputs]; split <;> rfl
    have hf : s.judgeNeighbours.fire = set.fire := by rw [e2]; rfl
    have hh : s.judgeNeighbours.alertHolders = s.alertHolders := by rw [e2, hset]; rfl
    refine ⟨by rw [e2, hset]; rfl, by rw [hf, hh, hset]; rfl, ?_, by rw [hf, hset]; rfl, by rw [hf, hset]; rfl,
        fun _ => by rw [hf, hset]; rfl, fun _ => by rw [hf, hset]; rfl⟩
    intro hc; rw [hf, hset] at hc; exact absurd hc h

/-- What a change of the neighbour-alert flag does to the fire unit, the climate outputs and the notices. -/
theorem judgeNeighbours_changed (s : State) (h : s.judgeNeighbours.fire.neighbourAlert ≠ s.fire.neighbourAlert) :
    s.judgeNeighbours.notices =
      (s.emit (.neighbourAlarm s.judgeNeighbours.fire.neighbourAlert s.judgeNeighbours.alertHolders s.custody.zoneClock)).notices ∧
    s.judgeNeighbours.fire = { s.fire with
      neighbourAlert := s.judgeNeighbours.fire.neighbourAlert, sounder := sounderFor s.fire.seq s.fire.generalSeen,
      damperClosed := damperFor s.fire.seq s.judgeNeighbours.fire.neighbourAlert } ∧
    s.judgeNeighbours.climate = s.climateForcedIn s.judgeNeighbours := by
  have hne : ¬ (!s.alertHolders.isEmpty) = s.fire.neighbourAlert := by
    intro hc; apply h; simp only [State.judgeNeighbours]; rw [if_pos hc]
  obtain ⟨set, hset⟩ : ∃ set, set = (s.withFire { s.fire with neighbourAlert := !s.alertHolders.isEmpty }).refreshFireOutputs := ⟨_, rfl⟩
  obtain ⟨u, hu⟩ : ∃ u, u = set.emit (.neighbourAlarm (!s.alertHolders.isEmpty) s.alertHolders s.custody.zoneClock) := ⟨_, rfl⟩
  have e : s.judgeNeighbours = u.forceOutputs := by simp only [State.judgeNeighbours]; rw [if_neg hne, hu, hset]
  have hf : s.judgeNeighbours.fire = set.fire := by rw [e, State.forceOutputs_fire, hu, State.emit_fire]
  have hah : s.judgeNeighbours.alertHolders = s.alertHolders := by simp only [State.alertHolders, State.judgeNeighbours_line]
  have hflag : s.judgeNeighbours.fire.neighbourAlert = !s.alertHolders.isEmpty := by rw [hf, hset]; rfl
  refine ⟨?_, ?_, ?_⟩
  · rw [hflag, hah, e, State.forceOutputs_notices, hu]
    exact emit_notices_congr _ _ _ (by rw [hset]; rfl) (by rw [hset]; rfl) (by rw [hset]; rfl)
  · rw [hflag, hf, hset]; rfl
  · rw [e]; exact forceOutputs_climate_of s u (by rw [hu]; simp [hset]) (by rw [hu]; simp [hset])

end Sys2Proof.Machine
end

