-- ==== Sys2Proof/Laws/Evaluate.lean ====
section
/-! SUPPORT. What one evaluation of the release sequence does (R121, R122), said once: it changes nothing, enters a state before
confirmation, or enters confirmation with the session and the offers that this ends. -/

namespace Sys2Proof.Machine

/-! ### Entry to confirmation -/

/-- The fire unit after an entry to confirmation: that of the change of the sequence state. -/
theorem enterConfirmation_fire (u : State) : u.enterConfirmation.fire =
    (u.enterSeq (if u.fire.holdOn || u.fire.isolateOn then .confirmed else .preDischarge)
      (if u.confirmationCondition then .confirmation else .manualCall)).fire := by
  simp only [State.enterConfirmation, State.withdrawOffers_fire]
  generalize u.enterSeq _ _ = v
  simp only [State.fireEndsSession]; split <;> simp

/-- No session stands before its commit point after an entry to confirmation (R72). -/
theorem enterConfirmation_dock (u : State) : u.enterConfirmation.dock.session.beforeCommit = false := by
  simp only [State.enterConfirmation, State.withdrawOffers_dock]
  generalize u.enterSeq _ _ = v
  simp only [State.fireEndsSession]; split
  · simp only [State.endUncommitted, State.abort]
    split <;> simp [State.sendAbort, DockUnit.cleared, idleDock, SessionState.beforeCommit]
  · rename_i h; simpa using h

/-- No entry is OFFERED after an entry to confirmation (R155). -/
theorem enterConfirmation_offers (u : State) : ∀ e ∈ u.enterConfirmation.transfer.entries, e.isOffered = false :=
  withdrawOffers_none _

/-- Where no session stands before its commit point and no entry is OFFERED, an entry to confirmation is a change of the sequence
state alone. -/
theorem enterConfirmation_plain (u : State) (h1 : u.dock.session.beforeCommit = false)
    (h2 : ∀ e ∈ u.transfer.entries, e.isOffered = false) : u.enterConfirmation = u.afterSequence u.enterConfirmation := by
  have h3 : u.enterConfirmation = u.enterSeq (if u.fire.holdOn || u.fire.isolateOn then .confirmed else .preDischarge)
      (if u.confirmationCondition then .confirmation else .manualCall) := by
    simp only [State.enterConfirmation]
    generalize hv : u.enterSeq _ _ = v
    have hd : v.dock = u.dock := by rw [← hv]; simp
    have ht : v.transfer = u.transfer := by rw [← hv]; simp
    have e1 : v.fireEndsSession = v := by simp only [State.fireEndsSession, hd, h1]; rfl
    have e2 : v.transfer.entries.filter TransferEntry.isOffered = [] := by
      rw [ht, List.filter_eq_nil_iff]; intro e he; simp [h2 e he]
    rw [e1]; simp only [State.withdrawOffers, e2]; rfl
  rw [h3]; exact enterSeq_afterSequence _ _ _

/-- Queueing WITHDRAWs changes the peer output queue alone of the line unit. -/
theorem foldl_queueWithdraw_line (l : List TransferEntry) (s : State) :
    (l.foldl State.queueWithdraw s).line = { s.line with peerOut := (l.foldl State.queueWithdraw s).line.peerOut } := by
  induction l generalizing s with
  | nil => rfl
  | cons e l ih => rw [List.foldl_cons, ih]; simp only [State.queueWithdraw]; split <;> rfl

/-- Withdrawing the offers changes the peer output queue alone of the line unit. -/
theorem withdrawOffers_line (s : State) : s.withdrawOffers.line = { s.line with peerOut := s.withdrawOffers.line.peerOut } := by
  simp only [State.withdrawOffers, State.emitAll_line]
  rw [foldl_queueWithdraw_line, foldl_keeps (fun t : State => t.line)]
  intro t e; simp

/-- What an entry to confirmation may change: what a change of the sequence state may, and the custody unit, the dock, the transfers
and the peer output queue. -/
theorem enterConfirmation_frame (u : State) : u.enterConfirmation = { u.afterSequence u.enterConfirmation with
    custody := u.enterConfirmation.custody, dock := u.enterConfirmation.dock, transfer := u.enterConfirmation.transfer,
    line := { u.line with peerOut := u.enterConfirmation.line.peerOut } } := by
  have hc : u.enterConfirmation.climate = { u.climate with
      humidify := u.enterConfirmation.climate.humidify, dehumidify := u.enterConfirmation.climate.dehumidify } := by
    have : u.enterConfirmation.climate =
        (u.enterSeq (if u.fire.holdOn || u.fire.isolateOn then .confirmed else .preDischarge)
          (if u.confirmationCondition then .confirmation else .manualCall)).climate := by
      simp only [State.enterConfirmation, State.withdrawOffers_climate]
      generalize u.enterSeq _ _ = v
      simp only [State.fireEndsSession]; split <;> simp
    rw [this]; exact congrArg State.climate (enterSeq_afterSequence _ _ _)
  have hl : u.enterConfirmation.line = { u.line with peerOut := u.enterConfirmation.line.peerOut } := by
    simp only [State.enterConfirmation]
    rw [withdrawOffers_line]
    generalize hv : u.enterSeq _ _ = v
    have : v.fireEndsSession.line = u.line := by
      rw [show u.line = v.line by rw [← hv]; simp]
      simp only [State.fireEndsSession]; split <;> simp
    rw [this]
  have close : ∀ t : State, t.pins = u.pins → t.request = u.request → t.conditioning = u.conditioning →
      t.climate = { u.climate with humidify := t.climate.humidify, dehumidify := t.climate.dehumidify } →
      t.line = { u.line with peerOut := t.line.peerOut } → t.now = u.now → t.free = u.free → t.pending = u.pending →
      t = { u.afterSequence t with
        custody := t.custody, dock := t.dock, transfer := t.transfer, line := { u.line with peerOut := t.line.peerOut } } := by
    rintro ⟨⟩ h1 h2 h3 h4 h5 h6 h7 h8
    simp only [State.afterSequence] at *
    rw [← h4, ← h5]; subst h1 h2 h3 h6 h7 h8; rfl
  exact close _ (by simp) (by simp) (by simp) hc hl (by simp) (by simp) (by simp)

/-! ### The evaluation -/

/-- What an evaluation can do: nothing, where the sequence state it gives is the one held; a change to a state before confirmation; or an
entry to confirmation. -/
theorem evaluate_cases (u : State) :
    (u.evaluatedSeq = u.fire.seq ∧ u.evaluate = u) ∨
    (∃ c, seqCode u.evaluatedSeq < 3 ∧ u.evaluatedSeq ≠ u.fire.seq ∧ u.evaluate = u.enterSeq u.evaluatedSeq c) ∨
    (seqCode u.fire.seq < 3 ∧ u.evaluatedSeq = (if u.fire.holdOn || u.fire.isolateOn then .confirmed else .preDischarge) ∧
      u.evaluate = u.enterConfirmation) := by
  by_cases h3 : 3 ≤ seqCode u.fire.seq
  · refine .inl ⟨by simp only [State.evaluatedSeq, h3, if_true], ?_⟩
    cases hq : u.fire.seq <;> rw [hq] at h3 <;> simp [seqCode] at h3 <;> simp only [State.evaluate, hq]
  · have hqs : u.fire.seq = .quiet ∨ u.fire.seq = .preAlert ∨ u.fire.seq = .alarm1 := by
      revert h3; cases u.fire.seq <;> simp [seqCode]
    cases hc : u.confirms with
    | true =>
      refine .inr (.inr ⟨by omega, ?_, ?_⟩)
      · simp only [State.evaluatedSeq]
        rw [if_neg h3, if_pos (by simpa [State.confirms] using hc)]
        cases u.fire.holdOn <;> cases u.fire.isolateOn <;> rfl
      · rcases hqs with hq | hq | hq <;> simp only [State.evaluate, hq, hc, if_true]
    | false =>
      have base : u.evaluatedSeq = if u.fire.seq ≠ .alarm1 ∧ (u.alarmCondition ∨ u.fire.callLatch) then .alarm1
          else if u.fire.seq = .quiet ∧ u.alertCondition then .preAlert
          else if u.fire.seq = .preAlert ∧ ¬u.alertCondition then .quiet
          else u.fire.seq := by
        simp only [State.evaluatedSeq]; rw [if_neg h3, if_neg (by simpa [State.confirms] using hc)]
      rw [base]
      rcases hqs with hq | hq | hq <;> simp only [State.evaluate, State.enterAlarm, hq, hc] <;>
        cases u.alarmCondition <;> cases u.fire.callLatch <;> cases u.alertCondition <;>
        simp [seqCode]

/-- All that an evaluation does to the sequence: the state that `evaluatedSeq` gives, with its timer and outputs, and on entry to
confirmation no session before its commit point and no OFFERED entry. -/
theorem evaluate_spec (u : State) : u.evaluate.fire.seq = u.evaluatedSeq ∧
    (u.evaluatedSeq = u.fire.seq → u.evaluate = u) ∧
    (u.evaluatedSeq ≠ u.fire.seq → u.evaluate.fire = { u.fire with
      seq := u.evaluatedSeq, release := false, pulse := none, soak := none,
      countdown := if u.evaluatedSeq = .preDischarge then some (u.now + 1000 * u.cfg.preDischarge) else none,
      sounder := sounderFor u.evaluatedSeq u.fire.generalSeen,
      damperClosed := damperFor u.evaluatedSeq u.fire.neighbourAlert }) ∧
    (3 ≤ seqCode u.evaluate.fire.seq → seqCode u.fire.seq < 3 →
      u.evaluate.dock.session.beforeCommit = false ∧ ∀ e ∈ u.evaluate.transfer.entries, e.isOffered = false) := by
  rcases evaluate_cases u with ⟨hs, he⟩ | ⟨c, hlt, hne, he⟩ | ⟨hlt, hs, he⟩
  · rw [hs, he]; exact ⟨rfl, fun _ => rfl, fun h => absurd rfl h, fun h1 h2 => by omega⟩
  · rw [he, enterSeq_fire]
    refine ⟨rfl, fun h => absurd h hne, fun _ => ?_, fun h => ?_⟩
    · revert hlt; cases u.evaluatedSeq <;> simp [seqCode]
    · simp only at h; omega
  · have hQ : u.evaluatedSeq = .confirmed ∨ u.evaluatedSeq = .preDischarge := by rw [hs]; split <;> simp
    rw [he, enterConfirmation_fire, enterSeq_fire, ← hs]
    refine ⟨rfl, fun h => ?_, fun _ => ?_, fun _ _ => ⟨enterConfirmation_dock u, enterConfirmation_offers u⟩⟩
    · rw [← h] at hlt; rcases hQ with h | h <;> rw [h] at hlt <;> simp [seqCode] at hlt
    · rcases hQ with h | h <;> rw [h] <;> rfl

/-- What an evaluation may change; short of confirmation, or where confirmation ends nothing, it is what a change of the sequence state
may change. -/
theorem evaluate_frame (u : State) : u.evaluate = { u.afterSequence u.evaluate with
      custody := u.evaluate.custody, dock := u.evaluate.dock, transfer := u.evaluate.transfer,
      line := { u.line with peerOut := u.evaluate.line.peerOut } } ∧
    (seqCode u.evaluatedSeq < 3 ∨ u.dock.session.beforeCommit = false ∧ (∀ e ∈ u.transfer.entries, e.isOffered = false) →
      u.evaluate = u.afterSequence u.evaluate) := by
  rcases evaluate_cases u with ⟨_, h⟩ | ⟨c, _, _, h⟩ | ⟨_, hs, h⟩
  · rw [h]; exact ⟨rfl, fun _ => rfl⟩
  · have e := enterSeq_afterSequence u u.evaluatedSeq c
    rw [h]; refine ⟨?_, fun _ => e⟩
    generalize u.enterSeq u.evaluatedSeq c = x at e; rw [e]; rfl
  · rw [h]; refine ⟨enterConfirmation_frame u, ?_⟩
    rintro (hlt | ⟨h1, h2⟩)
    · exfalso; rw [hs] at hlt; split at hlt <;> simp [seqCode] at hlt
    · exact enterConfirmation_plain u h1 h2

/-- An evaluation leaves the recorded inputs as they are. -/
theorem evaluate_inputs (u : State) : u.evaluate.fire.channels = u.fire.channels ∧
    u.evaluate.fire.callOperated = u.fire.callOperated ∧ u.evaluate.fire.callLatch = u.fire.callLatch ∧
    u.evaluate.fire.holdOn = u.fire.holdOn ∧ u.evaluate.fire.isolateOn = u.fire.isolateOn := by
  obtain ⟨_, h1, h2, _⟩ := evaluate_spec u
  by_cases h : u.evaluatedSeq = u.fire.seq
  · rw [h1 h]; simp
  · rw [h2 h]; simp

end Sys2Proof.Machine
end

