-- ==== Sys2Proof/Laws/Withdraw.lean ====
section
/-! SUPPORT. What the withdrawal of the offers does (R155), said once, with the lemmas of events recorded in a row that it needs. -/

namespace Sys2Proof.Machine

/-! ### Events recorded in a row -/

/-- A pending notice depends on the notice unit alone. -/
theorem pendingNotice_congr {s t : State} (n : Nat) (h : s.notices = t.notices) : s.pendingNotice n = t.pendingNotice n := by
  simp [State.pendingNotice, h]

/-- Whether a source records depends on the request unit alone. -/
theorem records_congr {s t : State} (n : Nat) (h : s.request = t.request) : s.records n = t.records n := by
  simp only [State.records, State.configured, State.level, State.cfg, h]; rfl

/-- An event leaves the notice table's length. -/
theorem emit_length (s : State) (e : Event) : (s.emit e).notices.pending.length = s.notices.pending.length := by
  simp only [State.emit]; split
  · simp [State.setNotice]
  · rfl

/-- Events leave the notice table's length. -/
theorem emitAll_length (s : State) (l : List Event) : (s.emitAll l).notices.pending.length = s.notices.pending.length := by
  unfold State.emitAll
  induction l generalizing s with
  | nil => rfl
  | cons a l ih => rw [List.foldl_cons, ih, emit_length]

/-- Events change the notice unit alone. -/
theorem emitAll_withNotices (s : State) (l : List Event) : s.emitAll l = s.withNotices (s.emitAll l).notices := by
  induction l generalizing s with
  | nil => rfl
  | cons e l ih => rw [show s.emitAll (e :: l) = (s.emit e).emitAll l from rfl, ih (s.emit e), emit_withNotices s e]; rfl

/-- A recorded event is the content of its source's pending notice. -/
theorem emit_content (s : State) (e : Event) (hl : s.notices.pending.length = 16) (h : s.records e.source = true) :
    ∃ x, (s.emit e).pendingNotice e.source = some x ∧ x.content = e := by
  refine ⟨_, emit_pendingNotice_self s e hl h, ?_⟩
  simp only [recordEvent]; split <;> rfl

/-- Of several events the last recorded one is the content of its source's pending notice. -/
theorem emitAll_last (l : List Event) (s : State) (e : Event) (hl : s.notices.pending.length = 16)
    (hr : s.records e.source = true) : ∃ y, (s.emitAll (l ++ [e])).pendingNotice e.source = some y ∧ y.content = e := by
  rw [show s.emitAll (l ++ [e]) = (s.emitAll l).emit e by simp [State.emitAll]]
  exact emit_content _ e (by rw [emitAll_length, hl]) (by rw [records_congr (t := s) _ (by simp)]; exact hr)

/-- Events leave the sources they are not on. -/
theorem emitAll_pendingNotice_other (s : State) (l : List Event) (n : Nat) (h : ∀ e ∈ l, n ≠ e.source) :
    (s.emitAll l).pendingNotice n = s.pendingNotice n := by
  unfold State.emitAll
  induction l generalizing s with
  | nil => rfl
  | cons e l ih =>
    rw [List.foldl_cons, ih _ (fun e he => h e (by simp [he])), emit_pendingNotice_other _ _ _ (h e (by simp))]

/-! ### Records restored, WITHDRAWs queued -/

/-- A TRANSFERRING record back in its prior state, its hold lowered to the ceiling (R7, R90, R155). -/
def restored (c : ConfigRecord) (minute : Nat) (r : Record) : Record :=
  match r.st with
  | .transferring _ restore => { r with
      stateMinute := minute,
      st := match restore.state with
        | .shelved => .shelved restore.position
        | .conditioning h => .conditioning restore.position (min h c.ceiling) }
  | _ => r

/-- Restoring keeps the identifier. -/
theorem restored_id (c : ConfigRecord) (minute : Nat) (r : Record) : (restored c minute r).id = r.id := by
  simp only [restored]; split <;> rfl

/-- Restoring twice is restoring once. -/
theorem restored_restored (c : ConfigRecord) (minute : Nat) (r : Record) :
    restored c minute (restored c minute r) = restored c minute r := by
  rcases r with ⟨_, st, _, _, _⟩
  cases st with
  | transferring p rs => rcases rs with ⟨st, _⟩; cases st <;> rfl
  | _ => rfl

/-- The register once a record is restored. -/
theorem restoreRecord_find (s : State) (id x : Ident) : (s.restoreRecord id).find x =
    if x = id then (s.find x).map (restored s.cfg s.minute) else s.find x := by
  simp only [State.restoreRecord]
  cases h : s.find id with
  | none => split <;> simp_all
  | some r =>
    have hid : r.id = id := findBy_key _ h
    rcases r with ⟨a, b, e, d, f⟩
    simp only at hid; subst hid
    cases b with
    | transferring p rs =>
      simp only
      have hr : (⟨a, .transferring p rs, e, d, f⟩ : Record).enter (rs.back s.cfg.ceiling) s.minute =
          restored s.cfg s.minute ⟨a, .transferring p rs, e, d, f⟩ := by
        rcases rs with ⟨st, _⟩; cases st <;> rfl
      rw [hr]
      have hk := restored_id s.cfg s.minute ⟨a, .transferring p rs, e, d, f⟩
      generalize hg : restored s.cfg s.minute ⟨a, .transferring p rs, e, d, f⟩ = g at *
      simp only at hk
      split
      · rename_i hx; subst hx
        rw [h]; simp only [Option.map_some, hg, State.find, State.putRecord, State.setRegister, State.withCustody_custody]
        rw [← hk]; exact findBy_putBy_same _ _ _
      · rename_i hx
        simp only [State.find, State.putRecord, State.setRegister, State.withCustody_custody]
        exact findBy_putBy_other _ (by rw [hk]; exact hx) _
    | _ =>
      simp only; split
      · rename_i hx; subst hx; rw [h]; rfl
      · rfl

/-- Restoring a record leaves the configuration, the clock and the manifests. -/
theorem restoreRecord_rest (s : State) (id : Ident) : (s.restoreRecord id).cfg = s.cfg ∧
    (s.restoreRecord id).minute = s.minute ∧ (s.restoreRecord id).custody.manifests = s.custody.manifests := by
  simp only [State.restoreRecord]
  split
  · exact ⟨rfl, rfl, rfl⟩
  · split <;> exact ⟨rfl, rfl, rfl⟩

/-- The register and the transfer table once the entries of a list are restored and freed. -/
theorem foldl_restore_spec (l : List TransferEntry) (s t : State)
    (ht : t = l.foldl (fun t e => (t.restoreRecord e.id).eraseEntry e.id) s) :
    (∀ x, t.find x = if x ∈ l.map (·.id) then (s.find x).map (restored s.cfg s.minute) else s.find x) ∧
    t.transfer = { s.transfer with entries := s.transfer.entries.filter fun e => decide (e.id ∉ l.map (·.id)) } ∧
    t.custody.manifests = s.custody.manifests ∧ t.cfg = s.cfg ∧ t.minute = s.minute := by
  induction l generalizing s with
  | nil => subst ht; exact ⟨by simp, by simp, rfl, rfl, rfl⟩
  | cons e l ih =>
    rw [List.foldl_cons] at ht
    obtain ⟨h1, h2, h3, h4, h5⟩ := ih _ ht
    obtain ⟨r1, r2, r3⟩ := restoreRecord_rest s e.id
    have e1 : ((s.restoreRecord e.id).eraseEntry e.id).cfg = s.cfg := r1
    have e2 : ((s.restoreRecord e.id).eraseEntry e.id).minute = s.minute := r2
    have e3 : ((s.restoreRecord e.id).eraseEntry e.id).custody.manifests = s.custody.manifests := r3
    have e4 : ∀ x, ((s.restoreRecord e.id).eraseEntry e.id).find x = (s.restoreRecord e.id).find x := fun _ => rfl
    have e5 : ((s.restoreRecord e.id).eraseEntry e.id).transfer =
        { s.transfer with entries := s.transfer.entries.filter fun x => decide (x.id ≠ e.id) } := by
      simp [State.eraseEntry, State.setEntries, eraseBy]
    rw [e1, e2] at h1
    refine ⟨?_, ?_, h3.trans e3, h4.trans e1, h5.trans e2⟩
    · intro x; rw [h1, e4, restoreRecord_find]
      by_cases hx : x = e.id
      · subst hx
        simp only [if_true, List.map_cons, List.mem_cons, true_or]
        split
        · cases s.find e.id <;> simp [restored_restored]
        · rfl
      · simp only [hx, if_false, List.map_cons, List.mem_cons, false_or]
    · rw [h2, e5]; simp only [List.filter_filter]; congr 1; apply List.filter_congr
      intro x _
      by_cases hx : x.id = e.id <;> simp [hx]

/-- The peer output queue once the WITHDRAWs of a list are queued while there is room; nothing else changes. -/
theorem foldl_queueWithdraw_spec (l : List TransferEntry) (s t : State) (ht : t = l.foldl State.queueWithdraw s) :
    t.custody = s.custody ∧ t.transfer = s.transfer ∧ t.request = s.request ∧ t.notices = s.notices ∧
    (s.line.peerOut.length ≤ 16 → t.line.peerOut =
      (s.line.peerOut ++ l.map fun e => (⟨e.peer, .withdraw e.id e.number⟩ : PeerOut)).take 16) := by
  induction l generalizing s with
  | nil => subst ht; exact ⟨rfl, rfl, rfl, rfl, fun h => by simp [List.take_of_length_le h]⟩
  | cons e l ih =>
    rw [List.foldl_cons] at ht
    obtain ⟨h1, h2, h3, h4, h5⟩ := ih _ ht
    refine ⟨h1.trans (by simp), h2.trans (by simp), h3.trans (by simp), h4.trans (by simp), fun hl => ?_⟩
    by_cases hr : s.line.peerOut.length < 16
    · have : (s.queueWithdraw e).line.peerOut = s.line.peerOut ++ [⟨e.peer, .withdraw e.id e.number⟩] := by
        simp only [State.queueWithdraw, State.peerRoom, peerOutDepth, hr, decide_true, if_true]; rfl
      rw [h5 (by rw [this]; simp; omega), this]; simp
    · have : (s.queueWithdraw e).line.peerOut = s.line.peerOut := by
        simp only [State.queueWithdraw, State.peerRoom, peerOutDepth, hr]; rfl
      rw [h5 (by rw [this]; exact hl), this]
      have h16 : s.line.peerOut.length = 16 := by omega
      rw [← h16, List.take_left, List.take_left]

/-! ### The withdrawal -/

/-- All that the withdrawal of the offers does (R155): the OFFERED entries' records restored and the entries freed, a WITHDRAW queued for
each while there is room, and a TRANSFER OUTCOME event for each, of which the last stands in the notice. -/
theorem withdrawOffers_spec (s : State) (offered : List TransferEntry)
    (ho : offered = s.transfer.entries.filter TransferEntry.isOffered) :
    (∀ x, s.withdrawOffers.find x =
      if x ∈ offered.map (·.id) then (s.find x).map (restored s.cfg s.minute) else s.find x) ∧
    s.withdrawOffers.transfer =
      { s.transfer with entries := s.transfer.entries.filter fun e => decide (e.id ∉ offered.map (·.id)) } ∧
    s.withdrawOffers.custody.manifests = s.custody.manifests ∧
    (s.line.peerOut.length ≤ 16 → s.withdrawOffers.line.peerOut =
      (s.line.peerOut ++ offered.map fun e => (⟨e.peer, .withdraw e.id e.number⟩ : PeerOut)).take 16) ∧
    (∀ n, n ≠ 10 → s.withdrawOffers.pendingNotice n = s.pendingNotice n) ∧
    (∀ e, s.notices.pending.length = 16 → s.records 10 = true → offered.getLast? = some e →
      ∃ y, s.withdrawOffers.pendingNotice 10 = some y ∧
        y.content = .transferOutcome e.id .out e.peer e.number .withdrawn none s.minute) := by
  have hL : ∀ e ∈ offered, e.isOffered = true := fun e he => (List.mem_filter.1 (ho ▸ he)).2
  obtain ⟨K, hK⟩ : ∃ K, K = offered.foldl (fun t e => (t.restoreRecord e.id).eraseEntry e.id) s := ⟨_, rfl⟩
  obtain ⟨Q, hQ⟩ : ∃ Q, Q = offered.foldl State.queueWithdraw K := ⟨_, rfl⟩
  have hW : s.withdrawOffers = Q.emitAll (offered.map fun e => Q.outcomeEvent e .withdrawn none) := by
    rw [hQ, hK, ho]; rfl
  obtain ⟨k1, k2, k3, k4, k5⟩ := foldl_restore_spec _ s K hK
  obtain ⟨q1, q2, q3, q4, q5⟩ := foldl_queueWithdraw_spec _ K Q hQ
  have n1 : K.notices = s.notices := by rw [hK, foldl_keeps (fun t : State => t.notices)]; intro t e; simp
  have n2 : K.line = s.line := by rw [hK, foldl_keeps (fun t : State => t.line)]; intro t e; simp
  have n3 : K.request = s.request := by rw [hK, foldl_keeps (fun t : State => t.request)]; intro t e; simp
  clear hK hQ ho
  rw [hW]
  refine ⟨?_, ?_, ?_, ?_, ?_, ?_⟩
  · intro x; rw [← k1]; simp only [State.find, State.emitAll_custody, q1]
  · rw [State.emitAll_transfer, q2, k2]
  · rw [State.emitAll_custody, q1, k3]
  · intro h; rw [State.emitAll_line]; rw [n2] at q5; exact q5 h
  · intro n hn; rw [emitAll_pendingNotice_other]
    · simp only [State.pendingNotice, q4, n1]
    · intro e he; simp only [List.mem_map] at he; obtain ⟨e, _, rfl⟩ := he; exact hn
  · intro e h1 h2 h3
    obtain ⟨l, rfl⟩ := List.getLast?_eq_some_iff.1 h3
    rw [List.map_append, List.map_cons, List.map_nil]
    have hm : Q.minute = s.minute := by rw [← k5]; simp only [State.minute, q1]
    have hd : e.isOffered = true → e.direction = .out := by
      simp only [TransferEntry.isOffered, TransferEntry.direction]; cases e.state <;> simp
    obtain ⟨y, hy, hc⟩ := emitAll_last (l.map fun e => Q.outcomeEvent e .withdrawn none) Q (Q.outcomeEvent e .withdrawn none)
      (by rw [q4, n1]; exact h1) (by rw [records_congr (t := s) _ (q3.trans n3)]; exact h2)
    refine ⟨y, hy, ?_⟩
    rw [hc]; simp only [State.outcomeEvent, hm, hd (hL e (by simp))]

end Sys2Proof.Machine
end

