-- ==== Sys2Proof/Laws/Formation.lean ====
section
/-! SUPPORT. What the formation of the zone value does (R102 to R104, R107), said once: to the climate unit, and to the notices. -/

namespace Sys2Proof.Machine

/-! ### Free choices -/

/-- A free choice draws from the counter alone. -/
theorem choose_snd {α : Type} (s : State) (l : List α) : ∃ n, (s.choose l).2 = s.withFree n := by
  match l with
  | [] => exact ⟨s.free, rfl⟩
  | [_] => exact ⟨s.free, rfl⟩
  | _ :: _ :: _ => exact ⟨s.free + 1, rfl⟩

/-- A free choice among some is one of them. -/
theorem choose_mem {α : Type} (s : State) (l : List α) (h : l ≠ []) : ∃ x ∈ l, (s.choose l).1 = some x := by
  match l with
  | [] => exact absurd rfl h
  | [x] => exact ⟨x, by simp, rfl⟩
  | x :: y :: rest =>
    simp only [State.choose]
    have : Config.pick s.free % (rest.length + 2) < (x :: y :: rest).length := Nat.mod_lt _ (Nat.succ_pos _)
    exact ⟨(x :: y :: rest)[Config.pick s.free % (rest.length + 2)], List.getElem_mem _, List.getElem?_eq_getElem _⟩

/-- An event does not read the counter of free values. -/
theorem withFree_emit (s : State) (f : Nat) (e : Event) : (s.withFree f).emit e = (s.emit e).withFree f := by
  simp only [State.emit]
  rw [show (s.withFree f).records e.source = s.records e.source from rfl]
  split <;> rfl

/-! ### Highest, lowest, mean -/

/-- A running maximum bounds what it runs over, and is one of it. -/
theorem foldl_max_spec (l : List Nat) (a : Nat) :
    a ≤ l.foldl max a ∧ (∀ x ∈ l, x ≤ l.foldl max a) ∧ (l.foldl max a = a ∨ l.foldl max a ∈ l) := by
  induction l generalizing a with
  | nil => simp
  | cons b l ih =>
    obtain ⟨h1, h2, h3⟩ := ih (max a b)
    simp only [List.foldl_cons]
    refine ⟨by omega, ?_, ?_⟩
    · intro x hx
      rcases List.mem_cons.1 hx with rfl | hx
      · omega
      · exact h2 x hx
    · rcases h3 with h3 | h3
      · rw [h3]; rcases Nat.le_total a b with h | h
        · right; simp [Nat.max_eq_right h]
        · left; simp [Nat.max_eq_left h]
      · right; exact List.mem_cons_of_mem _ h3

/-- A running minimum bounds what it runs over, and is one of it. -/
theorem foldl_min_spec (l : List Nat) (a : Nat) :
    l.foldl min a ≤ a ∧ (∀ x ∈ l, l.foldl min a ≤ x) ∧ (l.foldl min a = a ∨ l.foldl min a ∈ l) := by
  induction l generalizing a with
  | nil => simp
  | cons b l ih =>
    obtain ⟨h1, h2, h3⟩ := ih (min a b)
    simp only [List.foldl_cons]
    refine ⟨by omega, ?_, ?_⟩
    · intro x hx
      rcases List.mem_cons.1 hx with rfl | hx
      · omega
      · exact h2 x hx
    · rcases h3 with h3 | h3
      · rw [h3]; rcases Nat.le_total a b with h | h
        · left; simp [Nat.min_eq_left h]
        · right; simp [Nat.min_eq_right h]
      · right; exact List.mem_cons_of_mem _ h3

/-- The highest RH is that of a reading and bounds the others. -/
theorem highestRh_spec (l : List (Nat × Reading)) (h : l ≠ []) :
    (∃ r ∈ l, r.2.rh = highestRh l) ∧ ∀ r ∈ l, r.2.rh ≤ highestRh l := by
  obtain ⟨_, h2, h3⟩ := foldl_max_spec (l.map fun r => r.2.rh) 0
  refine ⟨?_, fun r hr => h2 _ (List.mem_map.2 ⟨r, hr, rfl⟩)⟩
  rcases h3 with h3 | h3
  · obtain ⟨a, ha⟩ := List.exists_mem_of_ne_nil l h
    have := h2 _ (List.mem_map.2 ⟨a, ha, rfl⟩)
    exact ⟨a, ha, by simp only [highestRh]; omega⟩
  · obtain ⟨a, ha, he⟩ := List.mem_map.1 h3; exact ⟨a, ha, he⟩

/-- The lowest RH is that of a reading and bounds the others. -/
theorem lowestRh_spec (l : List (Nat × Reading)) (h : l ≠ []) :
    (∃ r ∈ l, r.2.rh = lowestRh l) ∧ ∀ r ∈ l, lowestRh l ≤ r.2.rh := by
  obtain ⟨_, h2, h3⟩ := foldl_min_spec (l.map fun r => r.2.rh) (highestRh l)
  obtain ⟨⟨b, hb, hbe⟩, _⟩ := highestRh_spec l h
  refine ⟨?_, fun r hr => h2 _ (List.mem_map.2 ⟨r, hr, rfl⟩)⟩
  rcases h3 with h3 | h3
  · exact ⟨b, hb, by simp only [lowestRh]; omega⟩
  · obtain ⟨a, ha, he⟩ := List.mem_map.1 h3; exact ⟨a, ha, he⟩

/-- The probes of an RH are those with a reading of it. -/
theorem mem_probesAt (l : List (Nat × Reading)) (v k : Nat) : k ∈ probesAt l v ↔ ∃ r, (k, r) ∈ l ∧ r.rh = v := by
  simp only [probesAt, List.mem_map, List.mem_filter, beq_iff_eq]
  constructor
  · rintro ⟨⟨a, r⟩, ⟨h, h2⟩, rfl⟩; exact ⟨r, h, h2⟩
  · rintro ⟨r, h, h2⟩; exact ⟨(k, r), ⟨h, h2⟩, rfl⟩

/-- The rounded mean is the whole number nearest to the mean, a half upward. -/
theorem roundedMean_bounds (sum : Int) (n : Nat) (hn : 1 ≤ n) :
    2 * (n : Int) * roundedMean sum n ≤ 2 * sum + n ∧ 2 * sum + n < 2 * (n : Int) * (roundedMean sum n + 1) := by
  simp only [roundedMean]
  constructor
  · exact Int.mul_ediv_self_le (by omega)
  · have := Int.lt_mul_ediv_self_add (x := 2 * sum + n) (k := 2 * (n : Int)) (by omega)
    rw [Int.mul_add]; omega

/-- Of fewer than two readings there is no spread. -/
theorem rhSpreadOf_none (l : List (Nat × Reading)) (h : l.length ≤ 1) : rhSpreadOf l = none := by
  match l with
  | [] => rfl
  | [_] => rfl
  | _ :: _ :: _ => simp at h

/-- The spread of two or more readings is that of a reading that bounds the others above over one that bounds them below. -/
theorem rhSpreadOf_some (l : List (Nat × Reading)) (h : 2 ≤ l.length) :
    ∃ high ∈ l, ∃ low ∈ l, (∀ y ∈ l, low.2.rh ≤ y.2.rh ∧ y.2.rh ≤ high.2.rh) ∧ rhSpreadOf l = some (high.2.rh - low.2.rh) := by
  match l with
  | [] => simp at h
  | [x] => simp at h
  | x :: y :: r =>
    obtain ⟨rest, hr⟩ : ∃ rest, rest = (y :: r).map fun x => x.2.rh := ⟨_, rfl⟩
    obtain ⟨m1, m2, m3⟩ := foldl_max_spec rest x.2.rh
    obtain ⟨n1, n2, n3⟩ := foldl_min_spec rest x.2.rh
    have attained : ∀ v, (v = x.2.rh ∨ v ∈ rest) → ∃ a ∈ x :: y :: r, a.2.rh = v := by
      rintro v (rfl | h)
      · exact ⟨x, by simp, rfl⟩
      · rw [hr] at h; obtain ⟨a, ha, he⟩ := List.mem_map.1 h; exact ⟨a, List.mem_cons_of_mem _ ha, he⟩
    obtain ⟨high, hhm, hhe⟩ := attained _ m3
    obtain ⟨low, hlm, hle⟩ := attained _ n3
    refine ⟨high, hhm, low, hlm, fun a ha => ?_, ?_⟩
    · rw [hhe, hle]
      rcases List.mem_cons.1 ha with rfl | ha
      · exact ⟨n1, m1⟩
      · have : a.2.rh ∈ rest := by rw [hr]; exact List.mem_map.2 ⟨a, ha, rfl⟩
        exact ⟨n2 _ this, m2 _ this⟩
    · rw [hhe, hle, hr]; rfl

/-- The spread is judged high where two readings are more than 80 apart. -/
theorem spreadJudged_iff (s : State) : s.spreadJudged = true ↔ ∃ a ∈ s.usable, ∃ b ∈ s.usable, b.2.rh + 80 < a.2.rh := by
  simp only [State.spreadJudged]
  rcases Nat.lt_or_ge 1 s.usable.length with h | h
  · obtain ⟨high, h1, low, h2, hb, he⟩ := rhSpreadOf_some s.usable h
    have hs : spreadLimit = 80 := rfl
    simp only [he, decide_eq_true_eq]
    constructor
    · intro hd; exact ⟨high, h1, low, h2, by omega⟩
    · rintro ⟨a, ha, b, hb', hd⟩
      have := hb a ha; have := hb b hb'; omega
  · simp only [rhSpreadOf_none _ h, Bool.false_eq_true, false_iff]
    rintro ⟨a, ha, b, hb, hd⟩
    match hu : s.usable, h with
    | [], _ => simp [hu] at ha
    | [x], _ => simp [hu] at ha hb; subst ha hb; omega

/-- The usable probes are the polled ones, from number `base`, that are not FAILED and hold a reading. -/
theorem mem_usableFrom (polled : Nat → Bool) (base : Nat) (l : List ProbeRecord) (k : Nat) (r : Reading) :
    (k, r) ∈ usableFrom polled base l ↔
      base ≤ k ∧ polled k = true ∧ ∃ p, l[k - base]? = some p ∧ p.state ≠ .failed ∧ p.reading = some r := by
  induction l generalizing base with
  | nil => simp [usableFrom]
  | cons p l ih =>
    have rest : (k, r) ∈ usableFrom polled (base + 1) l ↔
        base + 1 ≤ k ∧ polled k = true ∧ ∃ q, (p :: l)[k - base]? = some q ∧ q.state ≠ .failed ∧ q.reading = some r := by
      rw [ih (base + 1)]
      have shift : base + 1 ≤ k → (p :: l)[k - base]? = l[k - (base + 1)]? := by
        intro h; rw [show k - base = (k - (base + 1)) + 1 by omega]; rfl
      constructor
      · rintro ⟨h1, h2, q, h3, h4⟩; exact ⟨h1, h2, q, by rw [shift h1]; exact h3, h4⟩
      · rintro ⟨h1, h2, q, h3, h4⟩; exact ⟨h1, h2, q, by rw [← shift h1]; exact h3, h4⟩
    have cases : (base ≤ k ∧ polled k = true ∧ ∃ q, (p :: l)[k - base]? = some q ∧ q.state ≠ .failed ∧ q.reading = some r) ↔
        (k = base ∧ polled base = true ∧ p.state ≠ .failed ∧ p.reading = some r) ∨ (k, r) ∈ usableFrom polled (base + 1) l := by
      rw [rest]
      constructor
      · rintro ⟨h1, h2, q, h3, h4⟩
        rcases Nat.eq_or_lt_of_le h1 with rfl | h
        · simp at h3; subst h3; exact .inl ⟨rfl, h2, h4⟩
        · exact .inr ⟨h, h2, q, h3, h4⟩
      · rintro (⟨rfl, h2, h4⟩ | ⟨h, h2⟩)
        · exact ⟨Nat.le_refl _, h2, p, by simp, h4⟩
        · exact ⟨by omega, h2⟩
    rw [cases]
    simp only [usableFrom]
    cases hr : p.reading with
    | none => simp
    | some r' =>
      by_cases hc : (polled base && p.state != .failed) = true
      · simp only
        rw [if_pos hc, List.mem_cons, Prod.mk.injEq, Option.some.injEq]
        simp at hc
        exact or_congr ⟨fun ⟨h1, h2⟩ => ⟨h1, hc.1, hc.2, h2.symm⟩, fun ⟨h1, _, _, h2⟩ => ⟨h1, h2.symm⟩⟩ Iff.rfl
      · simp only
        rw [if_neg hc]
        simp at hc
        exact ⟨.inr, fun h => h.resolve_left fun ⟨_, h1, h2, _⟩ => absurd (hc h1) h2⟩

/-! ### The spread -/

/-- The spread's event changes the notices and the counter of free values alone. -/
theorem emitSpread_frame (s : State) : ∃ n f, s.emitSpread = (s.withNotices n).withFree f := by
  obtain ⟨f, hf⟩ := choose_snd s (probesAt s.usable (highestRh s.usable))
  simp only [State.emitSpread]
  rcases hc : s.choose (probesAt s.usable (highestRh s.usable)) with ⟨_ | a, t⟩
  · rw [hc] at hf; simp at hf; subst hf; exact ⟨_, _, rfl⟩
  · rw [hc] at hf; simp at hf; subst hf
    obtain ⟨g, hg⟩ := choose_snd (s.withFree f) (probesAt s.usable (lowestRh s.usable))
    simp only
    rcases hd : (s.withFree f).choose (probesAt s.usable (lowestRh s.usable)) with ⟨_ | b, u⟩
    · rw [hd] at hg; simp at hg; subst hg; exact ⟨_, _, rfl⟩
    · rw [hd] at hg; simp at hg; subst hg
      exact ⟨_, g, (emit_withNotices _ _).trans rfl⟩

/-- The spread's event carries the RH spread and names a probe of the highest and one of the lowest reading. -/
theorem emitSpread_spec (s : State) (h : s.usable ≠ []) :
    ∃ a b f high low, s.emitSpread = (s.emit (.spreadHigh (high.rh - low.rh) a b)).withFree f ∧
      (a, high) ∈ s.usable ∧ (b, low) ∈ s.usable ∧ ∀ y ∈ s.usable, low.rh ≤ y.2.rh ∧ y.2.rh ≤ high.rh := by
  obtain ⟨⟨⟨ka, ra⟩, ha, hae⟩, hmax⟩ := highestRh_spec s.usable h
  obtain ⟨⟨⟨kb, rb⟩, hb, hbe⟩, hmin⟩ := lowestRh_spec s.usable h
  simp only at hae hbe
  have n1 : probesAt s.usable (highestRh s.usable) ≠ [] := List.ne_nil_of_mem ((mem_probesAt _ _ ka).2 ⟨ra, ha, hae⟩)
  have n2 : probesAt s.usable (lowestRh s.usable) ≠ [] := List.ne_nil_of_mem ((mem_probesAt _ _ kb).2 ⟨rb, hb, hbe⟩)
  obtain ⟨a, hma, hca⟩ := choose_mem s _ n1
  obtain ⟨f, hf⟩ := choose_snd s (probesAt s.usable (highestRh s.usable))
  simp only [State.emitSpread]
  rcases hc : s.choose (probesAt s.usable (highestRh s.usable)) with ⟨x, t⟩
  rw [hc] at hca hf; simp only at hca hf; subst hca hf
  obtain ⟨b, hmb, hcb⟩ := choose_mem (s.withFree f) _ n2
  obtain ⟨g, hg⟩ := choose_snd (s.withFree f) (probesAt s.usable (lowestRh s.usable))
  simp only
  rcases hd : (s.withFree f).choose (probesAt s.usable (lowestRh s.usable)) with ⟨x, t⟩
  rw [hd] at hcb hg; simp only at hcb hg; subst hcb hg
  obtain ⟨high, h1, h2⟩ := (mem_probesAt _ _ a).1 hma
  obtain ⟨low, h3, h4⟩ := (mem_probesAt _ _ b).1 hmb
  refine ⟨a, b, g, high, low, ?_, h1, h3, ?_⟩
  · simp only; rw [h2, h4, show (s.withFree f).withFree g = s.withFree g from rfl, withFree_emit]
  · intro y hy; rw [h2, h4]; exact ⟨hmin y hy, hmax y hy⟩

/-- What the judgement of the spread changes. -/
theorem judgeSpread_frame (s : State) : ∃ n f, s.judgeSpread =
    ((s.withClimate { s.climate with spreadHigh := s.spreadJudged }).withNotices n).withFree f := by
  simp only [State.judgeSpread]; split
  · exact emitSpread_frame _
  · exact ⟨_, _, rfl⟩

/-- The notices after the judgement of the spread: an event where it becomes high, and no change otherwise. -/
theorem judgeSpread_notices (s : State) :
    (s.judgeSpread.notices = s.notices ∧ ¬(s.spreadJudged = true ∧ s.climate.spreadHigh = false)) ∨
    ((s.spreadJudged = true ∧ s.climate.spreadHigh = false) ∧ ∃ a b high low,
      s.judgeSpread.notices = (s.emit (.spreadHigh (high.rh - low.rh) a b)).notices ∧
      (a, high) ∈ s.usable ∧ (b, low) ∈ s.usable ∧ ∀ y ∈ s.usable, low.rh ≤ y.2.rh ∧ y.2.rh ≤ high.rh) := by
  simp only [State.judgeSpread]
  by_cases h : (s.spreadJudged && !s.climate.spreadHigh) = true
  · right
    rw [if_pos h]
    simp at h
    have hne : (s.withClimate { s.climate with spreadHigh := s.spreadJudged }).usable ≠ [] := by
      obtain ⟨a, ha, _⟩ := (spreadJudged_iff s).1 h.1
      exact List.ne_nil_of_mem ha
    obtain ⟨a, b, f, high, low, he, h1, h2, h3⟩ := emitSpread_spec _ hne
    refine ⟨h, a, b, high, low, ?_, h1, h2, h3⟩
    rw [he, State.withFree_notices]
    exact emit_notices_congr _ _ _ rfl rfl rfl
  · left; rw [if_neg h]; exact ⟨rfl, by simpa using h⟩

/-! ### The formation -/

/-- The zone value of the usable readings, as `State.zoneFormed` says it. -/
theorem zoneFormed_of (t : State) (h : t.climate.zone = zoneValueOf t.usable) : t.zoneFormed := by
  refine ⟨?_, ?_, ?_⟩
  · intro k r
    rw [show t.usable = usableFrom t.polled 1 t.climate.probes from rfl, mem_usableFrom]
    simp only [State.polled, Bool.and_eq_true, decide_eq_true_eq, and_assoc]
    exact ⟨fun ⟨h1, _, h2, h3⟩ => ⟨h1, h2, h3⟩, fun ⟨h1, h2, h3⟩ => ⟨h1, h1, h2, h3⟩⟩
  · rw [h]; cases t.usable <;> simp [zoneValueOf]
  · intro z hz
    rw [h] at hz
    cases hu : t.usable with
    | nil => rw [hu] at hz; simp [zoneValueOf] at hz
    | cons a l =>
      rw [hu] at hz
      simp only [zoneValueOf, Option.some.injEq] at hz
      have hsum : 0 ≤ ((a :: l).map fun r => (r.2.rh : Int)).sum := by
        apply List.sum_nonneg; intro x hx; obtain ⟨y, _, rfl⟩ := List.mem_map.1 hx; exact Int.natCast_nonneg _
      have hm : 0 ≤ roundedMean ((a :: l).map fun r => (r.2.rh : Int)).sum (a :: l).length := by
        simp only [roundedMean]; apply Int.ediv_nonneg <;> omega
      obtain ⟨b1, b2⟩ := roundedMean_bounds ((a :: l).map fun r => (r.2.rh : Int)).sum (a :: l).length (by simp)
      obtain ⟨b3, b4⟩ := roundedMean_bounds ((a :: l).map fun r => r.2.temperature).sum (a :: l).length (by simp)
      subst hz
      simp only
      rw [Int.toNat_of_nonneg hm]
      exact ⟨b1, b2, b3, b4⟩

/-- All that a formation does to the state, the notices apart: the spread and the zone value of the usable readings, the band judged on
it, and each output turned OFF where anything forces. -/
theorem formation_spec (r : State) : ∃ n f inBand forced,
    r.formation = { r with
      notices := n, free := f,
      climate := { r.climate with
        spreadHigh := r.spreadJudged, zone := zoneValueOf r.usable, inBand := inBand,
        humidify := if forced then r.climate.humidify.turnOff r.now else r.climate.humidify,
        dehumidify := if forced then r.climate.dehumidify.turnOff r.now else r.climate.dehumidify } } ∧
    forced = r.formation.forcing ∧ r.formation.zoneFormed ∧ r.formation.bandFormed := by
  obtain ⟨n1, f1, hsp⟩ := judgeSpread_frame r
  obtain ⟨Z, hZ⟩ : ∃ Z, Z = r.judgeSpread.withClimate { r.judgeSpread.climate with zone := zoneValueOf r.usable } := ⟨_, rfl⟩
  have hfz : r.judgeSpread.formZone = Z.forceOutputs := by
    rw [hZ]; simp only [State.formZone]; congr 2; rw [hsp]; rfl
  have hZZ : Z = ((r.withClimate { r.climate with spreadHigh := r.spreadJudged, zone := zoneValueOf r.usable }).withNotices n1).withFree
      f1 := by rw [hZ, hsp]; rfl
  have hFO : Z.forceOutputs = { r with notices := n1, free := f1, climate := { r.climate with
      spreadHigh := r.spreadJudged, zone := zoneValueOf r.usable,
      humidify := if Z.forcing then r.climate.humidify.turnOff r.now else r.climate.humidify,
      dehumidify := if Z.forcing then r.climate.dehumidify.turnOff r.now else r.climate.dehumidify } } := by
    simp only [State.forceOutputs]
    cases Z.forcing with
    | true => rw [if_pos rfl, if_pos rfl, if_pos rfl, hZZ]; rfl
    | false => rw [if_neg (by simp), if_neg (by simp), if_neg (by simp), hZZ]; rfl
  obtain ⟨n2, hjb⟩ : ∃ n, r.formation =
      (Z.forceOutputs.withClimate { Z.forceOutputs.climate with inBand := Z.forceOutputs.bandJudged }).withNotices n := by
    simp only [State.formation, hfz, State.judgeBand]; split
    · rename_i h; exact ⟨Z.forceOutputs.notices, by rw [h]; rfl⟩
    · exact ⟨_, emit_withNotices _ _⟩
  have hB : Z.forceOutputs.bandJudged = true ↔ r.configured = true ∧ ∃ z, zoneValueOf r.usable = some z ∧
      ((z.rh : Int) - r.cfg.rhSet).natAbs ≤ r.cfg.rhBand ∧ (z.temperature - r.cfg.tempSet).natAbs ≤ r.cfg.tempBand := by
    have : Z.forceOutputs.bandJudged = (r.configured && match zoneValueOf r.usable with
        | none => false
        | some z =>
          ((z.rh : Int) - r.cfg.rhSet).natAbs ≤ r.cfg.rhBand && (z.temperature - r.cfg.tempSet).natAbs ≤ r.cfg.tempBand) := by
      rw [hFO]
      simp only [State.bandJudged, State.configured, State.cfg]
      cases zoneValueOf r.usable <;> rfl
    rw [this]; cases zoneValueOf r.usable <;> simp
  generalize Z.forceOutputs.bandJudged = B at hjb hB
  rw [hFO] at hjb
  have hT : r.formation = { r with notices := n2, free := f1, climate := { r.climate with
      spreadHigh := r.spreadJudged, zone := zoneValueOf r.usable, inBand := B,
      humidify := if Z.forcing then r.climate.humidify.turnOff r.now else r.climate.humidify,
      dehumidify := if Z.forcing then r.climate.dehumidify.turnOff r.now else r.climate.dehumidify } } := by rw [hjb]; rfl
  refine ⟨n2, f1, B, Z.forcing, hT, ?_, ?_, ?_⟩
  · rw [hT, hZZ]; rfl
  · rw [hT]; exact zoneFormed_of _ rfl
  · rw [hT]; exact ⟨hB, spreadJudged_iff r⟩

/-- All that a formation does to the notices: ZONE BAND where the band changes, and PROBE with a highest and a lowest probe where the
spread becomes high. -/
theorem formation_notices (r : State) (hl : r.notices.pending.length = 16) :
    (∀ n, n ≠ 12 → n ≠ 13 → r.formation.pendingNotice n = r.pendingNotice n) ∧
    (r.formation.climate.inBand = r.climate.inBand → r.formation.pendingNotice 12 = r.pendingNotice 12) ∧
    (r.formation.climate.inBand ≠ r.climate.inBand → r.records 12 = true →
      ∃ x, r.formation.pendingNotice 12 = some x ∧ x.content = .zoneBand r.formation.climate.inBand r.formation.climate.zone) ∧
    (r.formation.climate.spreadHigh = false ∨ r.climate.spreadHigh = true →
      r.formation.pendingNotice 13 = r.pendingNotice 13) ∧
    (r.formation.climate.spreadHigh = true → r.climate.spreadHigh = false → r.records 13 = true →
      ∃ x a b high low, r.formation.pendingNotice 13 = some x ∧ x.content = .spreadHigh (high.rh - low.rh) a b ∧
        (a, high) ∈ r.formation.usable ∧ (b, low) ∈ r.formation.usable ∧
        ∀ y ∈ r.formation.usable, low.rh ≤ y.2.rh ∧ y.2.rh ≤ high.rh) := by
  obtain ⟨_, _, _, _, f1, _⟩ := formation_spec r
  have hsj : r.formation.climate.spreadHigh = r.spreadJudged := by rw [f1]
  have hus : r.formation.usable = r.usable := by rw [f1]; rfl
  have hSn := judgeSpread_notices r
  obtain ⟨S, hS⟩ : ∃ S, S = r.judgeSpread := ⟨_, rfl⟩
  rw [← hS] at hSn
  obtain ⟨hSr, hSib⟩ : S.request = r.request ∧ S.climate.inBand = r.climate.inBand := by
    obtain ⟨n, f, he⟩ := judgeSpread_frame r; rw [hS, he]; exact ⟨rfl, rfl⟩
  obtain ⟨Z, hZ⟩ : ∃ Z, Z = S.formZone := ⟨_, rfl⟩
  obtain ⟨hZn, hZr, hZib⟩ : Z.notices = S.notices ∧ Z.request = S.request ∧ Z.climate.inBand = S.climate.inBand := by
    rw [hZ]; simp only [State.formZone, State.forceOutputs]; split <;> exact ⟨rfl, rfl, rfl⟩
  have hF : r.formation = Z.judgeBand := by rw [hZ, hS]; rfl
  have hlS : S.notices.pending.length = 16 := by
    rcases hSn with ⟨h, _⟩ | ⟨_, a, b, _, _, h, _⟩
    · rw [h, hl]
    · rw [h, emit_length, hl]
  have hJ : (Z.bandJudged = Z.climate.inBand ∧ r.formation = Z) ∨
      (Z.bandJudged ≠ Z.climate.inBand ∧ r.formation.climate.inBand = Z.bandJudged ∧
        r.formation.climate.zone = Z.climate.zone ∧
        r.formation.notices = (Z.emit (.zoneBand Z.bandJudged Z.climate.zone)).notices) := by
    rw [hF]; simp only [State.judgeBand]
    by_cases h : Z.bandJudged = Z.climate.inBand
    · exact .inl ⟨h, if_pos h⟩
    · right; rw [if_neg h]
      exact ⟨h, by simp, by simp, emit_notices_congr _ _ _ rfl rfl rfl⟩
  have hoth : ∀ n, n ≠ 12 → r.formation.pendingNotice n = S.pendingNotice n := by
    intro n hn
    rcases hJ with ⟨_, h⟩ | ⟨_, _, _, h⟩
    · rw [h]; exact pendingNotice_congr n hZn
    · rw [pendingNotice_congr n h, emit_pendingNotice_other _ _ _ (by simpa [Event.source] using hn)]
      exact pendingNotice_congr n hZn
  have hspr : ∀ n, n ≠ 13 → S.pendingNotice n = r.pendingNotice n := by
    intro n hn
    rcases hSn with ⟨h, _⟩ | ⟨_, a, b, _, _, h, _⟩
    · exact pendingNotice_congr n h
    · rw [pendingNotice_congr n h, emit_pendingNotice_other _ _ _ (by simpa [Event.source] using hn)]
  refine ⟨fun n h1 h2 => (hoth n h1).trans (hspr n h2), ?_, ?_, ?_, ?_⟩
  · intro h
    rcases hJ with ⟨_, h'⟩ | ⟨hne, hi, _, _⟩
    · rw [h', pendingNotice_congr 12 hZn, hspr 12 (by decide)]
    · exact absurd (hi.symm.trans (h.trans (hZib.trans hSib).symm)) hne
  · intro h hr
    rcases hJ with ⟨_, h'⟩ | ⟨_, hi, hz, hn⟩
    · exact absurd (by rw [h', hZib, hSib]) h
    · obtain ⟨x, h1, h2⟩ := emit_content Z (.zoneBand Z.bandJudged Z.climate.zone) (by rw [hZn, hlS])
        (by rw [records_congr (t := r) _ (hZr.trans hSr)]; exact hr)
      exact ⟨x, by rw [pendingNotice_congr 12 hn]; exact h1, by rw [h2, hi, hz]⟩
  · intro h
    rw [hsj] at h
    rw [hoth 13 (by decide)]
    rcases hSn with ⟨h', _⟩ | ⟨hh, _⟩
    · exact pendingNotice_congr 13 h'
    · rcases h with h | h <;> simp [h] at hh
  · intro h h2 hr
    rw [hsj] at h
    rw [hoth 13 (by decide), hus]
    rcases hSn with ⟨_, h'⟩ | ⟨_, a, b, high, low, hn, h3, h4, h5⟩
    · exact absurd ⟨h, h2⟩ h'
    · obtain ⟨x, h6, h7⟩ := emit_content r (.spreadHigh (high.rh - low.rh) a b) hl hr
      exact ⟨x, a, b, high, low, by rw [pendingNotice_congr 13 hn]; exact h6, h7, h3, h4, h5⟩

/-! ### The zone report -/

/-- A probe has eight bytes in the zone report. -/
theorem probeReportBytes_length (polled : Bool) (roundStart : Nat) (p : ProbeRecord) :
    (probeReportBytes polled roundStart p).length = 8 := by
  simp only [probeReportBytes]
  cases p.reading <;> simp [readingBytes, signedBytes, toBytes_length]

/-- The reports of the probes have eight bytes each. -/
theorem probesReportFrom_length (polled : Nat → Bool) (roundStart base : Nat) (l : List ProbeRecord) :
    (probesReportFrom polled roundStart base l).length = 8 * l.length := by
  induction l generalizing base with
  | nil => rfl
  | cons p l ih => simp only [probesReportFrom, List.length_append, probeReportBytes_length, ih, List.length_cons]; omega

/-- The eight bytes of the probe at an index stand at eight times it. -/
theorem probesReportFrom_block (polled : Nat → Bool) (roundStart base n : Nat) (l : List ProbeRecord) (p : ProbeRecord)
    (h : l[n]? = some p) :
    ((probesReportFrom polled roundStart base l).drop (8 * n)).take 8 = probeReportBytes (polled (base + n)) roundStart p := by
  induction l generalizing base n with
  | nil => simp at h
  | cons q l ih =>
    cases n with
    | zero =>
      simp at h; subst h
      simp only [probesReportFrom, Nat.mul_zero, List.drop_zero, Nat.add_zero]
      exact List.take_left' (probeReportBytes_length _ _ _)
    | succ n =>
      simp only [probesReportFrom]
      rw [show 8 * (n + 1) = 8 + 8 * n by omega, ← List.drop_drop, List.drop_left' (probeReportBytes_length _ _ _),
        ih (base + 1) n (by simpa using h), show base + 1 + n = base + (n + 1) by omega]

end Sys2Proof.Machine
end

