-- ==== Sys2Proof/WellFormed.lean ====
section
/-! DEFINITION. Which commands the wires can carry as the row they are named by. An ill-formed command is still taken
by `exec`, which judges its operands by the spec's own rules (a frame that no wire carries is a frame not well formed). -/

namespace Sys2Proof

/-- A SCAN carries ten bytes (11.4); an IDENTITY counts its intervals in one byte (11.4); a slot frame counts its
payload in two bytes and holds what follows its header, at most the 65,535 bytes that the count can name (11.1); a message
of an unlisted kind has a kind byte outside 1 to 9 (R168); a probe answer and a case frame are bytes that the link can
deliver, at most a two-byte length and its frame around it (11.4). -/
def Instr.wellFormed : Instr → Bool
  | .scan cartridge => cartridge.length == 10
  | .identity _ _ _ _ intervals => intervals.length ≤ 255
  | .beaconReceived _ f => f.payload.length ≤ 65535
  | .requestReceived _ f => f.payload.length ≤ 65535
  | .peerMessageReceived _ _ f => f.payload.length ≤ 65535
  | .ignoredMessage _ _ f => f.payload.length ≤ 65535
  | .unknownKindMessage _ kind f => (kind.toNat == 0 || kind.toNat > 9) && f.payload.length ≤ 65535
  | .addressConflict (.heard _ f) => f.payload.length ≤ 65535
  | .malformedCaseFrame bytes => bytes.length ≤ 65540
  | _ => true

end Sys2Proof
end

