-- ==== Sys2Proof/Tests/Slice0.lean ====
section
/-! SUPPORT. Tests: the well-formedness smoke tests, one-step tests whose expected values stand in the worked sequences of spec/, and
for every obligation a state and operands that meet its hypotheses. -/

namespace Sys2Proof.Tests

/- One theorem at a time: each is evaluated by the kernel in full, and many at once would each hold a thread. -/
set_option Elab.async false

open Sys2Proof.Machine

/-! ### Small states -/

/-- The text of an identifier as its bytes. -/
def idOf (codes : List Nat) : Ident := codes.map (BitVec.ofNat 8)

/-- QA0012345M, the cartridge of the worked transfer (chapter 7). -/
def qa : Ident := idOf [81, 65, 48, 48, 49, 50, 51, 52, 53, 77]

/-- VK004217L7, the cartridge of the worked record (chapter 1). -/
def vk : Ident := idOf [86, 75, 48, 48, 52, 50, 49, 55, 76, 55]

/-- A lower-case identifier, which is malformed. -/
def low : Ident := idOf [107, 116, 48, 48, 48, 48, 49, 52, 55, 97]

/-- A configured station at address 3, key ON, aligned in cycle 1, with the quiet inputs of the reset. -/
def zone : State := { State.reset with
  pins := { State.reset.pins with keyOn := true, straps := 3 },
  request := ⟨some defaultConfig, some 0, none⟩,
  line := { freshLine 3 0 (List.replicate 16 false) with aligned := true, cycle := 1 } }

/-- The request that the tests send: from station 0 under tag 1. -/
def asked (p : List Byte) : Request := ⟨0, 1, p⟩

/-- A state with one request waiting. -/
def asks (p : List Byte) (s : State) : State := { s with line := { s.line with requests := [asked p] } }

/-- A state with one transfer message waiting. -/
def tells (m : PeerIn) (s : State) : State := { s with line := { s.line with peerIn := [m] } }

/-- A state holding these records. -/
def holding (l : List Record) (s : State) : State := { s with custody := { s.custody with register := l } }

/-- A record in a state, with nothing else of note. -/
def recordOf (id : Ident) (st : RecState) : Record := ⟨id, st, none, false, 0⟩

/-- A state with this manifest table. -/
def manifests (l : List (Option Manifest)) (s : State) : State := { s with custody := { s.custody with manifests := l } }

/-- A state with these transfer entries. -/
def entries (l : List TransferEntry) (s : State) : State := { s with transfer := { s.transfer with entries := l } }

/-- A state in a sequence state. -/
def inSeq (q : Seq) (s : State) : State := { s with fire := { s.fire with seq := q } }

/-- A state whose dock is in a session state, with the exchange of a frame outstanding. -/
def inSession (st : SessionState) (frame : Option DockFrame) (s : State) : State :=
  { s with dock := { s.dock with session := st, outstanding := frame.map fun f => ⟨f, 0⟩ } }

/-- A state that is sending an item in its own slot. -/
def sends (i : SlotItem) (conflict : Bool) (s : State) : State :=
  { s with line := { s.line with sending := some ⟨i, [], conflict⟩ } }

/-- A state with a pending notice on a source. -/
def noting (n : Nat) (x : PendingNotice) (s : State) : State := { s with notices := ⟨s.notices.pending.set n (some x)⟩ }

/-- A state at a zone clock. -/
def atClock (n : Nat) (s : State) : State := { s with custody := { s.custody with zoneClock := n } }

/-- A state with one entry of its peer table. -/
def peered (a : Nat) (p : PeerEntry) (s : State) : State := { s with line := { s.line with peers := s.line.peers.set a p } }

/-- A state at a time-base millisecond. -/
def atTime (n : Nat) (s : State) : State := { s with now := n }

/-- The slot message of a kind, well formed. -/
def frameOf (kind dest : Byte) (p : List Byte) : SlotFrame :=
  ⟨dest, 1, BitVec.ofNat 16 p.length, p, crc (messageBody kind dest 1 (BitVec.ofNat 16 p.length) p)⟩

/-- What is read of the state a command leaves. -/
def after {α : Type} (read : State → α) (c : Instr) (s : State) : Option α :=
  match exec c s with
  | .next t => some (read t)
  | _ => none

/-- The results of the answers waiting. -/
def results (s : State) : List Result := s.line.answers.map (·.result)

/-- The states of the records. -/
def states (s : State) : List RecState := s.custody.register.map (·.st)

/-- A manifest IN SESSION. -/
def bound : Manifest := ⟨.inSession, [qa], 0⟩

/-- The last position of rack 255. -/
def lastPlace : Position := ⟨255, 63⟩

/-- A station whose dock is in a session with a scan list of one DEPART record. -/
def departing (st : SessionState) (frame : Option DockFrame) : State :=
  let s := inSession st frame (holding [recordOf qa (.loading lastPlace 1)] (manifests [some bound, none, none, none] zone))
  { s with dock := { s.dock with
    intent := some .departing, manifest := some 1, identity := some ⟨40117, 204556, 65535, .departing, []⟩,
    scans := [⟨qa, .record false⟩] } }

/-! ### Well-formedness: each check refuses an ill-formed command -/

theorem smoke_scan_length : (Instr.scan (List.replicate 9 48)).wellFormed = false ∧ (Instr.scan qa).wellFormed = true := by decide

/-- A list of intervals of a given length. -/
def intervalsOf (n : Nat) : List RawInterval := List.replicate n ⟨1, 0, 0⟩

theorem intervalsOf_length (n : Nat) : (intervalsOf n).length = n := List.length_replicate

theorem smoke_identity_intervals :
    (Instr.identity 1 1 0 2 (intervalsOf 256)).wellFormed = false ∧ (Instr.identity 1 1 0 2 (intervalsOf 255)).wellFormed = true := by
  simp only [Instr.wellFormed, intervalsOf_length]; decide

/-- A run of bytes, and a frame whose payload is longer than its length field can name. -/
def bytesOf (n : Nat) : List Byte := List.replicate n 0

theorem bytesOf_length (n : Nat) : (bytesOf n).length = n := List.length_replicate

/-- A slot frame with a payload of a given length. -/
def longFrame (n : Nat) : SlotFrame := ⟨3, 1, 0, bytesOf n, 0⟩

theorem smoke_beacon_payload : (Instr.beaconReceived 1 (longFrame 65536)).wellFormed = false := by
  simp only [Instr.wellFormed, longFrame, bytesOf_length]; decide

theorem smoke_request_payload : (Instr.requestReceived 1 (longFrame 65536)).wellFormed = false := by
  simp only [Instr.wellFormed, longFrame, bytesOf_length]; decide

theorem smoke_peer_message_payload : (Instr.peerMessageReceived 1 .take (longFrame 65536)).wellFormed = false := by
  simp only [Instr.wellFormed, longFrame, bytesOf_length]; decide

theorem smoke_ignored_message_payload : (Instr.ignoredMessage 1 .answer (longFrame 65536)).wellFormed = false := by
  simp only [Instr.wellFormed, longFrame, bytesOf_length]; decide

theorem smoke_unknown_kind_payload : (Instr.unknownKindMessage 1 10 (longFrame 65536)).wellFormed = false := by
  simp only [Instr.wellFormed, longFrame, bytesOf_length]; decide

theorem smoke_unknown_kind_listed : ∀ k : Fin 9, (Instr.unknownKindMessage 1 (BitVec.ofNat 8 (k + 1)) (longFrame 0)).wellFormed = false ∧
    (Instr.unknownKindMessage 1 10 (longFrame 65535)).wellFormed = true := by
  simp only [Instr.wellFormed, longFrame, bytesOf_length]; decide

theorem smoke_conflict_payload : (Instr.addressConflict (.heard 2 (longFrame 65536))).wellFormed = false := by
  simp only [Instr.wellFormed, longFrame, bytesOf_length]; decide

theorem smoke_case_frame_length : (Instr.malformedCaseFrame (bytesOf 65541)).wellFormed = false := by
  simp only [Instr.wellFormed, bytesOf_length]; decide

/-! ### One step of the worked sequences of spec/ -/

/-- The check value of the nine characters 123456789 under the polynomial and start of 11.1 is 29B1, the published one of that code. -/
theorem test_crc_check_value : crc [49, 50, 51, 52, 53, 54, 55, 56, 57] = 10673 := by decide +kernel

/-- Chapter 1: ENROL at rack 12 slot 5 makes a SHELVED record. -/
theorem test_enrol_worked :
    after (fun t => (results t, states t)) .enrol (asks (1 :: (vk ++ [12, 5])) zone) =
      some ([.done], [.shelved (some ⟨12, 5⟩)]) := by decide +kernel

/-- Chapter 1: RELEASE SUSPECT, CONDITION with no hold given takes the advised hold of 158. -/
theorem test_release_condition_worked :
    after states .releaseSuspectCondition
        (holding [recordOf vk (.suspect none (some 158) .countMismatch)] (asks (5 :: (vk ++ [2, 0, 0, 0, 0, 0])) zone)) =
      some [.conditioning none 158] := by decide +kernel

/-- Chapter 1: SHELVE of a CONDITIONING record sets its position and leaves its hold. -/
theorem test_shelve_worked :
    after states .shelve (holding [recordOf vk (.conditioning none 150)] (asks (3 :: (vk ++ [12, 9])) zone)) =
      some [.conditioning (some ⟨12, 9⟩) 150] := by decide +kernel

/-- Chapter 2: KT00001 followed by two digits and A. -/
def kt (d u : Nat) : Ident := idOf [75, 84, 48, 48, 48, 48, 49, 48 + d, 48 + u, 65]

/-- Chapter 2: the first CHECK-OUT opens manifest 2 with lifetime 240, and judges its six entries. -/
theorem test_check_out_worked :
    after (fun t => (t.line.answers.map (·.content), t.custody.manifests[1]?))
        .checkOut (manifests [some ⟨.waiting, [], 17⟩, none, none, none] (holding
          [recordOf (kt 4 0) (.shelved (some ⟨3, 1⟩)), recordOf (kt 4 1) (.shelved (some ⟨3, 2⟩)),
            recordOf (kt 4 2) (.shelved (some ⟨3, 3⟩)), recordOf (kt 4 3) (.out ⟨1, 1, 1⟩)]
          (asks (6 :: 6 :: [kt 4 0, kt 4 1, kt 4 3, low, kt 4 0, kt 4 2].flatten) zone))) =
      some ([[2, 0, 240, 6, 0, 0, 2, 4, 3, 0]], some (some ⟨.waiting, [kt 4 0, kt 4 1, kt 4 2], 240⟩)) := by decide +kernel

/-- Chapter 2: CANCEL MANIFEST 3 puts KT0000145A back at 3/5 and frees the entry. -/
theorem test_cancel_manifest_worked :
    after (fun t => (states t, t.custody.manifests)) .cancelManifest
        (manifests [none, none, some ⟨.waiting, [kt 4 5], 191⟩, none]
          (holding [recordOf (kt 4 5) (.reserved ⟨3, 5⟩ 3)] (asks [7, 3] zone))) =
      some ([.shelved (some ⟨3, 5⟩)], [none, none, none, none]) := by decide +kernel

/-- Chapter 3: the case arrival of session 15 is admitted and WAKE is sent. -/
theorem test_case_arrival_worked :
    after (fun t => (t.dock.session, t.dock.number, t.dock.indicator, t.dock.lastFrame)) .caseArrival
        { zone with dock := idleDock 14 } = some (.waking, 15, .active, some .wake) := by decide +kernel

/-- Chapter 3: AUTHORIZE of session 14 while session 15 waits finds no session. -/
theorem test_authorize_worked :
    after results .authorize (asks [8, 14, 3] { zone with dock := { idleDock 15 with session := .awaitingAuth, intent := some .departing } }) =
      some [.noSession] := by decide +kernel

/-- Chapter 3: the DONE of the count 312 after the departure of count 311 ends the session COMMITTED, the indicator OFF. -/
theorem test_done_worked :
    after (fun t => (t.dock.session, t.dock.indicator)) (.done 312)
        (inSession .committing (some .commit) { zone with dock := { idleDock 15 with
          identity := some ⟨40117, 204556, 311, .departing, []⟩, commit := some ⟨2, 2, 1, 0, 0, 0⟩ } }) =
      some (.idle, .off) := by decide +kernel

/-- Chapter 3: the kept summary of the return drops the interval of 0 minutes. -/
theorem test_kept_summary_worked :
    keptSummary [⟨60, 470, 200⟩, ⟨0, 900, 300⟩, ⟨180, 380, 250⟩] = [⟨60, 470, 200⟩, ⟨180, 380, 250⟩] := by decide +kernel

/-- Chapter 4: the configuration of the worked computation. -/
def chapter4 : ConfigRecord := { defaultConfig with
  rhSet := 400, rhBand := 50, tempSet := 180, tempBand := 30, uncovered := 100, divisor := 128, baseHold := 60, ceiling := 10080,
  exposureLimit := 500000 }

/-- Chapter 4: WD0031885L goes to CONDITIONING with exposure 26,300 and hold 266. -/
theorem test_settling_worked :
    settleEntry chapter4 ⟨61004, 1, 77, .returning, [⟨90, 620, 240⟩, ⟨120, 480, 210⟩, ⟨30, 410, 190⟩]⟩ 1260 ⟨vk, .record false⟩
      (some ⟨61004, 77, 1000⟩) = ⟨vk, .conditioning none 266, some 26300, false, 1260⟩ := by decide +kernel

/-- Chapter 4: the limit case saturates at 16,777,215, and is SUSPECT EXPOSURE with advised hold 10,080 and the log absent. -/
theorem test_settling_limit :
    settleEntry chapter4 ⟨61004, 1, 77, .returning, []⟩ 201000 ⟨vk, .record false⟩ (some ⟨61004, 77, 1000⟩) =
      ⟨vk, .suspect none (some 10080) .exposure, some 16777215, true, 201000⟩ := by decide +kernel

/-- A configured station IN BAND at an accumulator, whose seconds run in QUIET and PRE-ALERT. -/
def running (n : Nat) (q : Seq) : State :=
  inSeq q { zone with conditioning := ⟨n⟩, climate := { zone.climate with inBand := true } }

/-- Chapter 4: the second of 75,663, from an accumulator of 59, lowers 266 to 265 and the accumulator to 0; R89: a hold of 1 is spent in
the same step and the record is SHELVED as it stood. -/
theorem test_rollover_worked :
    after (fun t => (states t, t.conditioning.accumulator)) .zoneClockSecond
        (holding [recordOf qa (.conditioning (some ⟨4, 20⟩) 1), recordOf vk (.conditioning none 266)] (running 59 .quiet)) =
      some ([.shelved (some ⟨4, 20⟩), .conditioning none 265], 0) := by decide +kernel

/-- The bytes of a probe answer (11.4). -/
def probeBytes (k rh : Nat) (t : Int) : List Byte :=
  (BitVec.ofNat 8 k :: (toBytes 2 rh ++ signedBytes t)) ++
    toBytes 2 (crc (BitVec.ofNat 8 k :: (toBytes 2 rh ++ signedBytes t))).toNat

/-- Chapter 5: the last answer of the round of 12,058.5 gives 400 and 181, IN BAND, and dehumidify goes OFF. -/
theorem test_round_worked :
    after (fun t => (t.climate.zone, t.climate.inBand, t.climate.dehumidify.on)) (.probeAnswer (probeBytes 3 402 180))
        { zone with
          request := ⟨some { defaultConfig with probeCount := 3 }, some 0, none⟩,
          climate := { coldClimate with
            probes := [⟨.valid, some ⟨397, 182⟩, 0, true⟩, ⟨.valid, some ⟨401, 182⟩, 0, true⟩, coldProbe, coldProbe],
            round := some ⟨3, 0, []⟩, dehumidify := ⟨true, none⟩ } } =
      some (some ⟨400, 181⟩, true, false) := by decide +kernel

/-- R101, R103: readings of 100.0 % and 39.7 % end a round, and the PROBE event carries the spread of 60.3 % in two bytes, then probes 3 and 1. -/
theorem test_spread_event :
    after (fun t => (t.climate.spreadHigh, (t.pendingNotice 13).map fun x => x.content.bytes)) (.probeAnswer (probeBytes 3 1000 180))
        { zone with
          request := ⟨some { defaultConfig with probeCount := 3 }, some 0, none⟩,
          climate := { coldClimate with
            probes := [⟨.valid, some ⟨397, 182⟩, 0, true⟩, ⟨.valid, some ⟨401, 182⟩, 0, true⟩, ⟨.valid, some ⟨401, 182⟩, 0, true⟩, coldProbe],
            round := some ⟨3, 0, []⟩ } } = some (true, some [2, 91, 3, 1]) := by
  decide +kernel

/-- A station whose probe 1 was asked at millisecond 0. -/
def inRound : State := { zone with climate := { coldClimate with round := some ⟨1, 0, []⟩ } }

/-- R99: the answer at 200 ms is a valid reading, the one at 201 ms is discarded. -/
theorem test_probe_answer_late :
    after (fun t => t.climate.round.map (·.asked)) (.probeAnswer (probeBytes 1 402 180)) (atTime 200 inRound) = some (some 2) ∧
      after (fun t => t.climate) (.probeAnswer (probeBytes 1 402 180)) (atTime 201 inRound) = some inRound.climate := by
  decide +kernel

/-- R98: the round after that of millisecond 0 starts at 2,000 ms, not before. -/
theorem test_poll_round_spacing :
    after (fun t => t.climate.round.isSome) .pollRound (atTime 1999 { zone with climate := { coldClimate with nextRound := 2000 } }) =
        some false ∧
      after (fun t => (t.climate.round.isSome, t.climate.nextRound)) .pollRound
        (atTime 2000 { zone with climate := { coldClimate with nextRound := 2000 } }) = some (true, 4000) := by
  decide +kernel

/-- Chapter 6: channel 2 to ALARM takes PRE-ALERT to ALARM-1, the sounder ALERT and the damper CLOSED. -/
theorem test_channel_alarm_worked :
    after (fun t => (t.fire.seq, t.fire.sounder, t.fire.damperClosed)) (.channelEvent 2 .alarm)
        (inSeq .preAlert { zone with fire := { zone.fire with
          channels := [.normal, .normal, .alert, .normal, .normal, .normal, .fault, .normal] } }) =
      some (.alarm1, .alert, true) := by decide +kernel

/-- Chapter 6: channel 5 to ALARM confirms the zone; with the hold ON it goes to CONFIRMED. -/
theorem test_confirmation_worked :
    after (fun t => (t.fire.seq, t.fire.sounder)) (.channelEvent 5 .alarm)
        (inSeq .alarm1 { zone with fire := { zone.fire with
          holdOn := true, channels := [.normal, .alarm, .alarm, .normal, .normal, .normal, .fault, .normal] } }) =
      some (.confirmed, .evacuate) := by decide +kernel

/-- Chapter 7: MOVE of QA0012345M gives the number 62 and an OFFERED entry. -/
theorem test_move_worked :
    after (fun t => (states t, t.transfer.entries, t.line.peerOut)) .move
        (peered 9 ⟨.present, 0, true, some ⟨true, .quiet, true, 1010, false, false⟩, false, false, false⟩
          { asks (10 :: (qa ++ [9])) zone with
            custody := { zone.custody with register := [⟨qa, .conditioning (some ⟨4, 20⟩) 40, some 9150, false, 0⟩] }, transfer := ⟨[], 61⟩ }) =
      some ([.transferring ⟨9, 62⟩ ⟨.conditioning 40, some ⟨4, 20⟩⟩], [⟨qa, 9, 62, .offered none⟩],
        [⟨9, .offer qa 62 (some 40) (some 9150)⟩]) := by decide +kernel

/-- R147, log 46: the number of a MOVE is the next one, here 62, also while another OUT entry holds it. -/
theorem test_move_number_still_held :
    after (fun t => t.transfer.entries.map (·.number)) .move
        (peered 9 ⟨.present, 0, true, some ⟨true, .quiet, true, 1010, false, false⟩, false, false, false⟩
          { asks (10 :: (qa ++ [9])) zone with
            custody := { zone.custody with register := [recordOf qa (.shelved none)] }, transfer := ⟨[⟨vk, 5, 62, .taken 1⟩], 61⟩ }) =
      some [62, 62] := by decide +kernel

/-- Chapter 7: the TAKE that comes after the entry was freed is answered with WITHDRAW 62. -/
theorem test_take_late_worked :
    after (fun t => t.line.peerOut) .take (tells ⟨.take, 9, 7, qa ++ [62]⟩ zone) = some [⟨9, .withdraw qa 62⟩] := by decide +kernel

/-- Chapter 8: the mark of 6 heard gives 6. -/
theorem test_mark_worked : after (fun t => t.line.cycle) (.cycleMark 0x96) zone = some 6 := by decide +kernel

/-- Chapter 8: no mark heard after 7, the station sends 8, whose read-back gives 8. -/
theorem test_cycle_timer_worked :
    after (fun t => (t.line.markSent, t.line.cycle)) (.cycleTimerExpiry 0x78) { zone with line := { zone.line with cycle := 7 } } =
      some (some 0x78, 8) := by decide +kernel

/-- Chapter 9: CONFIGURE with RH set point 650, probe count 0, neighbours 6, 0, 7, 7, 9 and level 2 for source 0, at station 6. -/
theorem test_configure_worked :
    after (fun t => ((t.cfg.rhSet, t.cfg.probeCount, t.cfg.neighbours), t.level 0, t.request.gateway)) .configure
        (asks (14 :: 8 :: [[1, 0, 0, 2, 138], [6, 0, 0, 0, 0], [17, 0, 0, 0, 6], [17, 0, 0, 0, 0], [17, 0, 0, 0, 7], [17, 0, 0, 0, 7],
          [17, 0, 0, 0, 9], [22, 0, 0, 0, 2]].flatten) { State.reset with line := { State.reset.line with address := 6 } }) =
      some ((600, 1, [7]), some 0, some 0) := by decide +kernel

/-- Chapter 9: RETIRE with the key OFF is NOT AUTHORIZED. -/
theorem test_key_off_worked :
    after results .retire (asks (2 :: vk) { zone with pins := { zone.pins with keyOn := false } }) = some [.notAuthorized] := by
  decide +kernel

/-- Chapter 10: the acceptance of the notice of KQ0000031A, during whose slot KQ0000044A was released, leaves repeat 0. -/
theorem test_coalescing_worked :
    after (fun t => (t.pendingNotice 9).map fun x => (x.repeats, x.sending)) (.slotEnd true true false)
        (sends (.notice 9) false (noting 9 ⟨.conditioningComplete qa none none 122, 3, 7320, true, 1⟩ zone)) =
      some (some (0, false)) := by decide +kernel

/-- R174: a read-back that differs is reported when the slot ends. -/
theorem test_read_back_conflict :
    after (fun t => (t.pendingNotice 5).isSome) (.slotEnd true false false) (sends (.notice 9) true zone) = some true := by
  decide +kernel

/-- R164, R174: cut short by a mark, the same sending is UNANSWERED and reports nothing. -/
theorem test_mark_cuts_without_conflict :
    after (fun t => (t.line.sending, t.pendingNotice 5)) (.cycleMark 0x96) (sends (.notice 9) true zone) = some (none, none) := by
  decide +kernel

/-- R48: the ECHO that comes after the 500 ms of its DIGEST is discarded. -/
theorem test_echo_late :
    after (fun t => t.dock.session) (.echo 1 (crc qa)) (atTime 500 (departing .sealing (some (.digest 1 0)))) = some .committing ∧
      after (fun t => t.dock.session) (.echo 1 (crc qa)) (atTime 501 (departing .sealing (some (.digest 1 0)))) = some .sealing := by
  decide +kernel

/-! ### Every hypothesis is met: a state and operands for each obligation, and for each of its clauses -/

theorem witness_StepRunsFrontCommand :
    { zone with pending := [.pollRound, .closeKey] }.pending = .pollRound :: [.closeKey] ∧ zone.pending = [] ∧
      { zone with now := 999 }.pending = [] := by decide +kernel

theorem witness_EveryCommandAnswersAndKeepsQueue : Instr.pollRound ≠ .coldStart ∧ Instr.pollRound ≠ .zoneClockSecond := by decide

theorem witness_DueStepsSettleFirst :
    unsettledRow .closeKey = false ∧ { zone with line := { zone.line with superframeDue := true } }.settled = false := by decide +kernel

theorem witness_ColdStartEmptiesEveryBlock :
    (∀ x ∈ zone.pins.channels, x = .normal) ∧ zone.pins.callOperated = false ∧
      ({ State.cold { zone.pins with callOperated := true } 0 0 [] with
        fire := { coldFire { zone.pins with callOperated := true } with callLatch := true } } : State).evaluatedSeq = .preDischarge := by
  decide +kernel

theorem witness_WarmResetNormalisesAndKeeps :
    zone.settled = true ∧ zone.records 15 = true ∧ { zone with request := { zone.request with resetWait := some 5000 } }.settled = true ∧
      { zone with request := { zone.request with resetWait := some 5000 } }.request.resetWait.isSome ∧
      ({ zone with fire := { coldFire zone.pins with callLatch := zone.pins.callOperated } } : State).evaluatedSeq = .quiet ∧
      ({ inRound with climate := { inRound.climate with late := [4] } }).settled = true ∧ inRound.climate.round = some ⟨1, 0, []⟩ := by
  decide +kernel

theorem witness_RecordedInputsChangeNothingElse : zone.settled = true := by decide +kernel

theorem witness_SecondCountsClockAndAccumulator :
    (atClock 4294967294 zone).settled = true ∧ (atClock 4294967294 zone).custody.minuteDue = false ∧
      (atClock 4294967294 zone).custody.zoneClock < 4294967295 ∧ (atClock 4294967294 zone).climate.inBand = false ∧
      (atClock 4294967295 zone).settled = true ∧ (atClock 4294967295 zone).custody.minuteDue = false ∧
      4294967295 ≤ (atClock 4294967295 zone).custody.zoneClock := by
  decide +kernel

theorem witness_SecondCountsClockAndAccumulator_running :
    ∀ n ∈ [58, 59], ∀ q ∈ [Seq.quiet, .preAlert, .alarm1], (running n q).settled = true ∧ (running n q).custody.minuteDue = false ∧
      (running n q).custody.zoneClock < 4294967295 ∧ (running n q).configured = true ∧ (running n q).climate.inBand = true ∧
      (running n q).fire.seq = q ∧ (running n q).conditioning.accumulator = n := by
  decide +kernel

/-- A state whose minute event is due. -/
def minuteNow (s : State) : State := { s with custody := { s.custody with minuteDue := true } }

theorem witness_MinuteLowersLimitsAndCharges :
    (minuteNow zone).settled = true ∧ (minuteNow zone).custody.minuteDue = true ∧ (minuteNow zone).configured = true ∧
      (minuteNow State.reset).settled = true ∧ (minuteNow State.reset).custody.minuteDue = true ∧
      (minuteNow State.reset).configured = false := by decide +kernel

/-- An OPEN manifest at the end of its lifetime, and one with time left. -/
def spent : Manifest := ⟨.waiting, [qa], 0⟩

/-- An OPEN manifest with one member. -/
def waiting : Manifest := ⟨.waiting, [qa], 240⟩

theorem witness_ExpiredManifestFreesItsMembers_first :
    (manifests [some spent, none, none, some spent] zone).custody.manifests[1 - 1]? = some (some spent) ∧ spent.state = .waiting ∧
      spent.lifetime = 0 ∧
      ∀ k x, k < 1 - 1 → (manifests [some spent, none, none, some spent] zone).custody.manifests[k]? = some (some x) →
        ¬(x.state = .waiting ∧ x.lifetime = 0) :=
  ⟨rfl, rfl, rfl, fun k x h => absurd h (by omega)⟩

theorem witness_ExpiredManifestFreesItsMembers_last :
    (manifests [some bound, none, some waiting, some spent] zone).custody.manifests[4 - 1]? = some (some spent) ∧
      ∀ k x, k < 4 - 1 → (manifests [some bound, none, some waiting, some spent] zone).custody.manifests[k]? = some (some x) →
        ¬(x.state = .waiting ∧ x.lifetime = 0) := by
  refine ⟨rfl, fun k x hk h => ?_⟩
  match k, hk with
  | 0, _ => obtain rfl := Option.some.inj (Option.some.inj h); decide
  | 1, _ => exact absurd (Option.some.inj h) (by simp)
  | 2, _ => obtain rfl := Option.some.inj (Option.some.inj h); decide

theorem witness_RolloverLowersAndReleasesHolds :
    60 ≤ { zone with conditioning := ⟨60⟩ }.conditioning.accumulator ∧ (running 59 .quiet).conditioning.accumulator < 60 ∧
      (holding [recordOf qa (.conditioning none 1), recordOf vk (.conditioning none 0)] zone).canonical = true ∧
      (holding [recordOf qa (.conditioning none 1), recordOf vk (.conditioning none 0)] zone).custody.register =
        [recordOf qa (.conditioning none 1)] ++ recordOf vk (.conditioning none 0) :: [] ∧
      ∀ x ∈ [recordOf qa (.conditioning none 1)], ∀ q, x.st ≠ .conditioning q 0 := by
  refine ⟨by decide +kernel, by decide +kernel, by decide +kernel, rfl, ?_⟩
  simp [recordOf]

/-! #### Requests -/

/-- ENROL of an identifier at a position. -/
def enrolOf (id : Ident) (slot : Byte) : List Byte := 1 :: (id ++ [255, slot])

/-- A register of 1,024 records. -/
def fullRegister : List Record := List.replicate 1024 (recordOf qa (.shelved none))

theorem witness_EnrolAnswersByItsChecks :
    (asks (enrolOf vk 63) zone).ready (asked (enrolOf vk 63)) [] ∧ (asks (enrolOf vk 63) zone).passes .enrol ∧ vk.length = 10 ∧
      identOk vk = true ∧ (63 : Byte).toNat ≤ 63 ∧ (asks (enrolOf vk 63) zone).known vk = false ∧
      (asks (enrolOf vk 63) zone).occupancy < 1024 := by
  unfold State.ready State.passes; decide +kernel

theorem witness_EnrolAnswersByItsChecks_malformed :
    (asks (enrolOf low 63) zone).ready (asked (enrolOf low 63)) [] ∧ low.length = 10 ∧ identOk low = false ∧
      (asks (enrolOf vk 64) zone).ready (asked (enrolOf vk 64)) [] ∧ 63 < (64 : Byte).toNat := by
  unfold State.ready; decide +kernel

theorem witness_EnrolAnswersByItsChecks_duplicate :
    (holding [recordOf vk (.shelved none)] (asks (enrolOf vk 63) zone)).ready (asked (enrolOf vk 63)) [] ∧
      (holding [recordOf vk (.shelved none)] (asks (enrolOf vk 63) zone)).known vk = true := by
  unfold State.ready; decide +kernel

theorem witness_EnrolAnswersByItsChecks_full :
    (holding fullRegister (asks (enrolOf vk 63) zone)).ready (asked (enrolOf vk 63)) [] ∧
      (holding fullRegister (asks (enrolOf vk 63) zone)).known vk = false ∧
      1024 ≤ (holding fullRegister (asks (enrolOf vk 63) zone)).occupancy := by
  unfold State.ready; decide +kernel

/-- A state with one record and one request. -/
def oneRecord (st : RecState) (p : List Byte) : State := holding [recordOf qa st] (asks p zone)

theorem witness_RetireDeletesShelvedRecord :
    (oneRecord (.shelved (some lastPlace)) (2 :: qa)).ready (asked (2 :: qa)) [] ∧
      (oneRecord (.shelved (some lastPlace)) (2 :: qa)).passes .retire ∧ qa.length = 10 ∧ identOk qa = true ∧
      (oneRecord (.shelved (some lastPlace)) (2 :: qa)).find qa = some (recordOf qa (.shelved (some lastPlace))) ∧
      (recordOf qa (.shelved (some lastPlace))).st.code = 0 ∧
      (oneRecord (.shelved (some lastPlace)) (2 :: qa)).canonical = true := by
  unfold State.ready State.passes; decide +kernel

theorem witness_RetireDeletesShelvedRecord_refused :
    (asks (2 :: low) zone).ready (asked (2 :: low)) [] ∧ identOk low = false ∧ (asks (2 :: qa) zone).ready (asked (2 :: qa)) [] ∧
      (asks (2 :: qa) zone).find qa = none ∧ (oneRecord (.out ⟨1, 1, 1⟩) (2 :: qa)).ready (asked (2 :: qa)) [] ∧
      (oneRecord (.out ⟨1, 1, 1⟩) (2 :: qa)).find qa = some (recordOf qa (.out ⟨1, 1, 1⟩)) ∧
      (recordOf qa (.out ⟨1, 1, 1⟩)).st.code ≠ 0 := by
  unfold State.ready; decide +kernel

/-- SHELVE at the last position. -/
def shelveOf : List Byte := 3 :: (qa ++ [255, 63])

/-- A state with an INBOUND record, one SHELVE and a number of transfer messages queued. -/
def inboundWith (queued : Nat) : State :=
  { oneRecord (.inbound ⟨9, 62⟩ (some 39)) shelveOf with
    line := { (asks shelveOf zone).line with peerOut := List.replicate queued ⟨9, .take vk 1⟩ } }

theorem witness_ShelvePlacesOrCompletesArrival :
    ∀ st ∈ [RecState.shelved none, .conditioning none 1, .suspect none none .exposure, .reserved lastPlace 1, .loading lastPlace 1,
        .out ⟨1, 1, 1⟩, .returning ⟨1, 1, 1⟩, .transferring ⟨9, 62⟩ ⟨.shelved, none⟩],
      (oneRecord st shelveOf).settled = true ∧ (oneRecord st shelveOf).request.resetWait = none ∧
        (oneRecord st shelveOf).line.answers.length < 8 ∧ (oneRecord st shelveOf).line.requests = asked shelveOf :: [] ∧
        (oneRecord st shelveOf).configured = true ∧ RequestKind.shelve.custodial = false ∧ identOk qa = true ∧
        (63 : Byte).toNat ≤ 63 ∧ (oneRecord st shelveOf).find qa = some (recordOf qa st) := by
  decide +kernel

theorem witness_ShelvePlacesOrCompletesArrival_inbound :
    (inboundWith 15).ready (asked shelveOf) [] ∧ (inboundWith 15).line.peerOut.length < 16 ∧
      (inboundWith 15).find qa = some (recordOf qa (.inbound ⟨9, 62⟩ (some 39))) ∧ (inboundWith 16).ready (asked shelveOf) [] ∧
      16 ≤ (inboundWith 16).line.peerOut.length := by
  unfold State.ready; decide +kernel

/-- Ten characters that spell no identifier. -/
def malformedId : Ident := List.replicate 10 0

theorem witness_MalformedRequests :
    malformedId.length = 10 ∧ identOk malformedId = false ∧ 63 < (64 : Byte).toNat ∧ 15 < (16 : Byte).toNat ∧
      ∀ p ∈ [3 :: (malformedId ++ [255, 63]), 3 :: (qa ++ [255, 64]), 4 :: malformedId, 10 :: (malformedId ++ [15]), 10 :: (qa ++ [16])],
        (asks p zone).settled = true ∧ (asks p zone).request.resetWait = none ∧ (asks p zone).line.answers.length < 8 ∧
          (asks p zone).line.requests = asked p :: [] ∧ (asks p zone).configured = true := by
  decide +kernel

theorem witness_ShelvePlacesOrCompletesArrival_noRecord :
    (asks shelveOf zone).ready (asked shelveOf) [] ∧ (asks shelveOf zone).passes .shelve ∧ identOk qa = true ∧
      (asks shelveOf zone).find qa = none := by
  unfold State.ready State.passes; decide +kernel

theorem witness_QueryRecordAnswersWholeRecord :
    (oneRecord (.shelved none) (4 :: qa)).ready (asked (4 :: qa)) [] ∧ (oneRecord (.shelved none) (4 :: qa)).passes .queryRecord ∧
      identOk qa = true ∧ (oneRecord (.shelved none) (4 :: qa)).find qa = some (recordOf qa (.shelved none)) ∧
      (recordOf qa (.shelved none)).stateMinute < 4294967296 ∧ (asks (4 :: qa) zone).ready (asked (4 :: qa)) [] ∧
      (asks (4 :: qa) zone).find qa = none := by
  unfold State.ready State.passes; decide +kernel

/-- RELEASE SUSPECT with a disposition and presence bits, at the last position, with the hold 158. -/
def releaseOf (disposition presence : Byte) : List Byte := 5 :: (qa ++ [disposition, presence, 255, 63, 0, 158])

theorem witness_ReleaseSuspectByDisposition :
    ∀ d ∈ [(1 : Byte), 2, 3], ∀ p ∈ [(0 : Byte), 1, 2, 3], ∀ held ∈ [none, some lastPlace],
      let s := oneRecord (.suspect held (some 158) .countMismatch) (releaseOf d p)
      s.settled = true ∧ s.request.resetWait = none ∧ s.line.answers.length < 8 ∧ s.line.requests = asked (releaseOf d p) :: [] ∧
        s.configured = true ∧ s.pins.keyOn = true ∧ identOk qa = true ∧ p.toNat ≤ 3 ∧ (63 : Byte).toNat ≤ 63 ∧
        s.find qa = some (recordOf qa (.suspect held (some 158) .countMismatch)) := by
  decide +kernel

/-- RELEASE SUSPECT of an identifier, with a disposition, the last presence bits and a slot. -/
def releaseAt (id : Ident) (disposition slot : Byte) : List Byte := 5 :: (id ++ [disposition, 3, 255, slot, 0, 158])

theorem witness_ReleaseSuspectByDisposition_refused :
    malformedId.length = 10 ∧ identOk malformedId = false ∧ 63 < (64 : Byte).toNat ∧ (3 : Byte).toNat % 2 = 1 ∧
      (RecState.inbound ⟨9, 62⟩ none).code ≠ 6 ∧ (0 : Byte) ≠ 1 ∧ (4 : Byte) ≠ 3 := by
  decide +kernel

theorem witness_ReleaseSuspectByDisposition_refused_states :
    ∀ d ∈ [(0 : Byte), 1, 2, 3, 4], ∀ p ∈ [releaseAt malformedId d 63, releaseAt qa d 64, releaseAt qa d 63],
      ∀ l ∈ [[], [recordOf qa (.inbound ⟨9, 62⟩ none)]],
        let s := holding l (asks p zone)
        s.settled = true ∧ s.request.resetWait = none ∧ s.line.answers.length < 8 ∧ s.line.requests = asked p :: [] ∧
          s.configured = true ∧ s.pins.keyOn = true ∧ s.find qa = l.head? := by
  decide +kernel

/-- Each refusal of R19, by a row that takes it. -/
theorem test_release_refused :
    after results .releaseSuspectShelve (oneRecord (.out ⟨1, 1, 1⟩) (releaseAt qa 4 63)) = some [.malformed] ∧
      after results .releaseSuspectCondition (oneRecord (.out ⟨1, 1, 1⟩) (releaseAt qa 2 64)) = some [.malformed] ∧
      after results .releaseSuspectRemove (asks (releaseAt qa 3 63) zone) = some [.noSuchRecord] ∧
      after results .releaseSuspectShelve (oneRecord (.out ⟨1, 1, 1⟩) (releaseAt qa 1 63)) = some [.wrongState] := by
  decide +kernel

/-- CHECK-OUT of a list. -/
def checkOutOf (l : List Ident) : List Byte := 6 :: BitVec.ofNat 8 l.length :: l.flatten

/-- A station with QA0012345M placed and a CHECK-OUT of a list. -/
def checking (l : List Ident) (m : List (Option Manifest)) (s : State) : State :=
  manifests m (holding [recordOf qa (.shelved (some lastPlace))] (asks (checkOutOf l) s))

theorem witness_CheckOutReservesShelvedPlacedRecords_malformed :
    ∀ l ∈ [[], List.replicate 33 qa], (asks (checkOutOf l) zone).settled = true ∧ (asks (checkOutOf l) zone).request.resetWait = none ∧
      (asks (checkOutOf l) zone).line.requests = asked (checkOutOf l) :: [] ∧ (BitVec.ofNat 8 l.length).toNat = l.length ∧
      (∀ id ∈ l, id.length = 10) ∧ (l.length = 0 ∨ 32 < l.length) := by
  decide +kernel

theorem witness_CheckOutReservesShelvedPlacedRecords_alarm :
    (checking [qa] [none] (inSeq .alarm1 zone)).ready (asked (checkOutOf [qa])) [] ∧
      2 ≤ seqCode (checking [qa] [none] (inSeq .alarm1 zone)).fire.seq := by
  unfold State.ready; decide +kernel

theorem witness_CheckOutReservesShelvedPlacedRecords_latch :
    let s := checking [qa] [none] (inSeq .preAlert { zone with climate := { zone.climate with latch := true } })
    s.settled = true ∧ s.line.requests = asked (checkOutOf [qa]) :: [] ∧ seqCode s.fire.seq < 2 ∧ s.climate.latch = true := by
  decide +kernel

theorem witness_CheckOutReservesShelvedPlacedRecords_noSlot :
    let s := checking [qa] [some waiting, some waiting, some waiting, some waiting] zone
    s.settled = true ∧ s.line.requests = asked (checkOutOf [qa]) :: [] ∧ s.climate.latch = false ∧
      ∀ m ∈ s.custody.manifests, m.isSome := by
  decide +kernel

theorem witness_CheckOutReservesShelvedPlacedRecords_first :
    (checking (List.replicate 32 qa) [none, none, none, none] zone).ready (asked (checkOutOf (List.replicate 32 qa))) [] ∧
      (checking (List.replicate 32 qa) [none, none, none, none] zone).passes .checkOut ∧
      (checking (List.replicate 32 qa) [none, none, none, none] zone).custody.manifests[0]? = some none ∧
      reservedMembers (List.replicate 32 qa)
        (entryResults (checking (List.replicate 32 qa) [none, none, none, none] zone) [] (List.replicate 32 qa)) ≠ [] := by
  unfold State.ready State.passes; decide +kernel

theorem witness_CheckOutReservesShelvedPlacedRecords_last :
    (checking [vk] [some waiting, some waiting, some waiting, none] zone).ready (asked (checkOutOf [vk])) [] ∧
      (checking [vk] [some waiting, some waiting, some waiting, none] zone).custody.manifests[3]? = some none ∧
      reservedMembers [vk]
        (entryResults (checking [vk] [some waiting, some waiting, some waiting, none] zone) [] [vk]) = [] := by
  unfold State.ready; decide +kernel

theorem witness_CheckOutReservesShelvedPlacedRecords_lowest :
    ∀ j, j < 3 → ∃ m, (checking [vk] [some waiting, some waiting, some waiting, none] zone).custody.manifests[j]? = some (some m) := by
  intro j h
  match j, h with
  | 0, _ => exact ⟨_, rfl⟩
  | 1, _ => exact ⟨_, rfl⟩
  | 2, _ => exact ⟨_, rfl⟩

theorem witness_CancelManifestEndsOpenManifest :
    ∀ n ∈ [(0 : Byte), 1, 2, 3, 4, 5],
      let s := manifests [some waiting, none, some bound, some waiting] (asks [7, n] zone)
      s.settled = true ∧ s.request.resetWait = none ∧ s.line.answers.length < 8 ∧ s.line.requests = asked [7, n] :: [] ∧
        s.configured = true ∧ RequestKind.cancelManifest.custodial = false ∧
        s.manifest? 1 = some waiting ∧ s.manifest? 2 = none ∧ s.manifest? 3 = some bound ∧ s.manifest? 4 = some waiting := by
  decide +kernel

/-- A session in a state, with an intent, session 255, a request waiting. -/
def waitingSession (st : SessionState) (intent : Intent) (p : List Byte) : State :=
  manifests [some waiting, none, none, some bound] (asks p { zone with dock := { idleDock 255 with session := st, intent := some intent } })

theorem witness_AuthorizeAndDenyTheWaitingSession :
    ∀ st ∈ [SessionState.idle, .waking, .awaitingAuth, .committing], ∀ intent ∈ [Intent.departing, .returning],
      ∀ p ∈ [[(8 : Byte), 255, 0], [8, 255, 1], [8, 255, 4], [8, 255, 5], [8, 255, 254], [8, 255, 255], [8, 0, 1], [9, 255], [9, 0]],
        let s := waitingSession st intent p
        s.settled = true ∧ s.request.resetWait = none ∧ s.line.answers.length < 8 ∧ s.line.requests = asked p :: [] ∧
          s.configured = true ∧ RequestKind.authorize.custodial = false ∧ RequestKind.deny.custodial = false ∧
          s.dock.number = 255 ∧ s.dock.pendingAbort = none ∧ s.manifest? 1 = some waiting := by
  decide +kernel

theorem witness_AuthorizeAndDenyTheWaitingSession_notOpen :
    ∀ m, (waitingSession .awaitingAuth .departing [8, 255, 4]).manifest? 4 = some m → m.state = .inSession := by
  intro m h; obtain rfl := Option.some.inj h; rfl

/-- A PRESENT, configured peer with a register count. -/
def presentPeer (count : Nat) (confirmed : Bool) : PeerEntry :=
  ⟨.present, 0, true, some ⟨true, .preAlert, true, count, false, false⟩, false, confirmed, false⟩

/-- MOVE of QA0012345M to a station. -/
def moveOf (dest : Byte) : List Byte := 10 :: (qa ++ [dest])

/-- A station with QA0012345M in a state, peer 15 with a register count, and so many transfer entries and messages queued. -/
def moving (st : RecState) (count table queued : Nat) (s : State) : State :=
  let t := peered 15 (presentPeer count false) (entries (List.replicate table ⟨vk, 9, 1, .taken 5⟩) (holding [recordOf qa st] (asks (moveOf 15) s)))
  { t with line := { t.line with peerOut := List.replicate queued ⟨9, .take vk 1⟩ } }

theorem witness_MoveBeginsAnOffer :
    ∀ st ∈ [RecState.shelved none, .conditioning none 40], ∀ count ∈ [1023, 1024], ∀ table ∈ [7, 8], ∀ queued ∈ [15, 16],
      let s := moving st count table queued (inSeq .preAlert zone)
      s.settled = true ∧ s.request.resetWait = none ∧ s.line.answers.length < 8 ∧ s.line.requests = asked (moveOf 15) :: [] ∧
        s.configured = true ∧ RequestKind.move.custodial = false ∧ identOk qa = true ∧ (15 : Byte).toNat ≤ 15 ∧
        seqCode s.fire.seq < 2 ∧ s.find qa = some (recordOf qa st) ∧
        s.line.peers[15]? = some (presentPeer count false) ∧ (15 : Nat) ≠ s.line.address ∧ seqCode Seq.preAlert < 3 ∧
        s.transfer.entries.length = table ∧ s.line.peerOut.length = queued := by
  decide +kernel

theorem witness_MoveBeginsAnOffer_refused :
    2 ≤ seqCode (moving (.shelved none) 10 0 0 (inSeq .alarm1 zone)).fire.seq ∧
      (moving (.shelved none) 10 0 0 (inSeq .alarm1 zone)).settled = true ∧ (asks (moveOf 15) zone).find qa = none ∧
      (asks (moveOf 15) zone).settled = true ∧ (asks (moveOf 15) zone).unavailable 15 = true ∧ (asks (moveOf 0) zone).settled = true ∧
      (asks (moveOf 0) zone).unavailable 0 = true ∧ (RecState.suspect none none .exposure).code ≠ 0 ∧
      (RecState.suspect none none .exposure).code ≠ 5 := by
  decide +kernel

/-- Peers at which R146 refuses a MOVE: not PRESENT, unconfigured, in a confirmed fire, and with the confirmed bit. -/
def refusingPeers : List PeerEntry :=
  [{ presentPeer 5 false with presence := .unknown }, { presentPeer 5 false with presence := .absent },
    { presentPeer 5 false with beacon := some ⟨false, .quiet, true, 5, false, false⟩ },
    { presentPeer 5 false with beacon := some ⟨true, .confirmed, true, 5, false, false⟩ },
    { presentPeer 5 false with beacon := some ⟨true, .resetWait, true, 5, false, false⟩ }, presentPeer 5 true]

theorem witness_MoveBeginsAnOffer_unavailable :
    (3 : Byte).toNat = (oneRecord (.shelved none) (moveOf 3)).line.address ∧ (oneRecord (.shelved none) (moveOf 3)).settled = true ∧
      after results .move (oneRecord (.shelved none) (moveOf 3)) = some [.peerUnavailable] ∧
      ∀ p ∈ refusingPeers, (peered 15 p (oneRecord (.shelved none) (moveOf 15))).settled = true ∧
        (peered 15 p (oneRecord (.shelved none) (moveOf 15))).line.peers[15]? = some p ∧
        after results .move (peered 15 p (oneRecord (.shelved none) (moveOf 15))) = some [.peerUnavailable] := by
  decide +kernel

theorem witness_MoveBeginsAnOffer_conditions :
    ∀ p ∈ refusingPeers, p.presence ≠ .present ∨ (p.beacon.any fun b => !b.configured || decide (3 ≤ seqCode b.fire)) = true ∨
      p.confirmed = true := by
  decide +kernel

theorem witness_QueryZoneReportsAndExcursionClears :
    (asks [11] State.reset).ready (asked [11]) [] ∧ (asks [11] State.reset).climate.probes.length = 4 ∧
      (asks [11] State.reset).climate.account ≤ 16777215 ∧ (asks [12] zone).ready (asked [12]) [] ∧
      (asks [12] zone).configured = true ∧ (asks [12] zone).pins.keyOn = true := by
  unfold State.ready; decide +kernel

/-- A station asked for its report, with the probes' records and outputs that went OFF at time 0. -/
def reporting (probes : List ProbeRecord) : State :=
  { asks [11] zone with climate := { zone.climate with probes := probes, humidify := ⟨false, some 0⟩ } }

theorem witness_QueryZoneReportsAndExcursionClears_spread :
    (∀ l ∈ [[coldProbe, coldProbe, coldProbe, coldProbe],
        [coldProbe, ⟨.stale, some ⟨0, -400⟩, 0, true⟩, coldProbe, ⟨.valid, some ⟨1000, 850⟩, 0, true⟩]],
      (reporting l).settled = true ∧ (reporting l).request.resetWait = none ∧ (reporting l).line.answers.length < 8 ∧
        (reporting l).line.requests = asked [11] :: [] ∧ (reporting l).climate.probes.length = 4) ∧
      (reporting [coldProbe, coldProbe, coldProbe, coldProbe]).usable.length ≤ 1 ∧
      2 ≤ (reporting [coldProbe, ⟨.stale, some ⟨0, -400⟩, 0, true⟩, coldProbe, ⟨.valid, some ⟨1000, 850⟩, 0, true⟩]).usable.length ∧
      (reporting []).climate.humidify.on = false ∧ (reporting []).climate.humidify.offAt = some 0 ∧
      (reporting []).climate.dehumidify.offAt = none := by
  decide +kernel

theorem witness_CustodialChecksOfClimateAndFire :
    ∀ p ∈ [[(12 : Byte)], [13]],
      (asks p State.reset).settled = true ∧ (asks p State.reset).line.requests = asked p :: [] ∧ (asks p State.reset).configured = false ∧
        (asks p { zone with pins := quietPins }).settled = true ∧ (asks p { zone with pins := quietPins }).configured = true ∧
        (asks p { zone with pins := quietPins }).pins.keyOn = false := by
  decide +kernel

theorem witness_FireResetByItsTable :
    ∀ q ∈ [Seq.quiet, .preAlert, .alarm1, .confirmed, .preDischarge, .discharge, .soak, .resetWait], ∀ call ∈ [true, false],
      let s := inSeq q (asks [13] { zone with fire := { zone.fire with callOperated := call } })
      s.settled = true ∧ s.request.resetWait = none ∧ s.line.answers.length < 8 ∧ s.line.requests = asked [13] :: [] ∧
        s.configured = true ∧ s.pins.keyOn = true ∧ s.alertCondition = false ∧ s.alarmCondition = false ∧
        s.fire.callOperated = call ∧ s.climateHeld = true := by
  decide +kernel

/-- The CONFIGURE that takes the probe count 1, station 15 as a neighbour and source 7 to OFF. -/
def narrowed : List Byte := 14 :: 3 :: [[6, 0, 0, 0, 1], [17, 0, 0, 0, 15], [22, 0, 0, 7, 255]].flatten

/-- An unconfigured station in a round, its probe 4 VALID, station 15 PRESENT and in a confirmed fire, source 15 pending. -/
def unconfigured : State :=
  peered 15 (presentPeer 5 true) (noting 15 ⟨.arrivalRefused, 0, 0, true, 0⟩ (asks narrowed { State.reset with
    climate := { coldClimate with
      probes := [coldProbe, coldProbe, coldProbe, ⟨.valid, some ⟨402, 180⟩, 0, true⟩], round := some ⟨1, 0, []⟩ } }))

theorem witness_ConfigureIsAcceptedOnce :
    unconfigured.ready (asked narrowed) [] ∧ requestKindOf (asked narrowed).payload = some .configure ∧
      layoutWhole .configure (requestFields (asked narrowed).payload) = true ∧ unconfigured.configured = false ∧
      unconfigured.line.peers[15]? = some (presentPeer 5 true) ∧ unconfigured.notices.pending.length = 16 ∧
      unconfigured.climateHeld = true ∧ unconfigured.fireHeld = true ∧ unconfigured.climate.round = some ⟨1, 0, []⟩ ∧
      unconfigured.dock.session.beforeCommit = false ∧ (∀ e ∈ unconfigured.transfer.entries, e.isOffered = false) ∧
      (asks [14, 0] zone).ready (asked [14, 0]) [] ∧ (asks [14, 0] zone).configured = true := by
  unfold State.ready; decide +kernel

theorem witness_ConfigureIsAcceptedOnce_config :
    let config := configFrom unconfigured.line.address 0 (configEntries (requestFields narrowed))
    config.probeCount = 1 ∧ config.levels[7]? = some none ∧ config.levels[13]? = some (some 3) ∧ config.neighbours = [15] ∧
      ({ unconfigured with request := ⟨some config, some 0, none⟩ } : State).evaluatedSeq = unconfigured.fire.seq ∧
      unconfigured.climate.probes[4 - 1]? = some ⟨.valid, some ⟨402, 180⟩, 0, true⟩ ∧
      after (fun t => (t.climate.spreadHigh, t.fire.neighbourAlert, t.records 12, t.records 3)) .configure unconfigured =
        some (false, true, true, true) := by
  decide +kernel

/-- A CONFIGURE at which the spread becomes high, as it does only from a state that has not judged it: probes 1 and 2 with 100.0 % and 39.7 %. -/
theorem witness_ConfigureIsAcceptedOnce_spread :
    let probes : List ProbeRecord := [⟨.valid, some ⟨1000, 182⟩, 0, true⟩, ⟨.valid, some ⟨397, 182⟩, 0, true⟩, coldProbe, coldProbe]
    let s := asks [14, 0] { State.reset with climate := { coldClimate with probes := probes } }
    s.ready (asked [14, 0]) [] ∧ s.climate.spreadHigh = false ∧ s.notices.pending.length = 16 ∧
      after (fun t => (t.climate.spreadHigh, t.records 13, (t.pendingNotice 13).map (·.content))) .configure s =
        some (true, true, some (.spreadHigh 603 1 2)) := by
  unfold State.ready; decide +kernel

/-- One entry with a value for each end of the RH set point's range and beyond it, a group that is no choice, and OFF. -/
theorem witness_ConfiguredValuesLieInTheirRanges :
    (∀ v ∈ [(199 : Int), 200, 600, 601], (([⟨1, v, 0, 0⟩] : List ConfigEntry).filter fun e => e.item == 1).getLast? = some ⟨1, v, 0, 0⟩) ∧
      (([⟨13, 0, 7, 3⟩] : List ConfigEntry).filter fun e => e.item == 13 && e.third == 7).getLast? = some ⟨13, 0, 7, 3⟩ ∧
      (([⟨22, 0, 15, 255⟩] : List ConfigEntry).filter fun e => e.item == 22 && e.third == 15).getLast? = some ⟨22, 0, 15, 255⟩ := by
  decide +kernel

theorem witness_RequestUnitChecksComeFirst :
    (asks (2 :: qa) State.reset).ready (asked (2 :: qa)) [] ∧ requestKindOf (2 :: qa) = some .retire ∧
      takesRequest .retire .retire (requestFields (2 :: qa)) = true ∧ (asks (2 :: qa) State.reset).configured = false ∧
      RequestKind.retire ≠ .configure ∧ RequestKind.retire ≠ .queryZone := by
  unfold State.ready; decide +kernel

theorem witness_RequestUnitChecksComeFirst_key :
    (asks [15] { zone with pins := quietPins }).ready (asked [15]) [] ∧ takesRequest .reset .reset (requestFields [15]) = true ∧
      (asks [15] { zone with pins := quietPins }).configured = true ∧ RequestKind.reset.custodial = true ∧
      (asks [15] { zone with pins := quietPins }).pins.keyOn = false := by
  unfold State.ready; decide +kernel

theorem witness_RequestUnitChecksComeFirst_layout :
    ∀ k ∈ [RequestKind.enrol, .retire, .shelve, .queryRecord, .releaseSuspect, .checkOut, .cancelManifest, .authorize, .deny, .move,
        .configure],
      layoutWhole k (requestFields [kindByte k]) = false ∧ requestKindOf [kindByte k] = some k ∧
        (asks [kindByte k] zone).settled = true ∧ (asks [kindByte k] zone).configured = true ∧
        (asks [kindByte k] zone).pins.keyOn = true := by
  decide +kernel

/-- 11.2: a kind at each end of the list, and a whole layout at each end of the lengths. -/
theorem witness_RequestUnitChecksComeFirst_layouts :
    (requestKindOf [1] = some .enrol ∧ requestKindOf [15] = some .reset ∧ requestKindOf [16] = none) ∧
      layoutWhole .checkOut (1 :: qa) = true ∧ layoutWhole .checkOut (2 :: qa) = false ∧
      layoutWhole .configure [1, 22, 0, 0, 15, 0] = true ∧ layoutWhole .configure [1, 23, 0, 0, 0, 0] = false ∧
      layoutWhole .reset [] = true ∧ layoutWhole .reset [0] = false := by
  decide +kernel

theorem witness_RequestUnitChecksComeFirst_unknown :
    (asks [0] zone).ready (asked [0]) [] ∧ requestKindOf [0] = none ∧ (asks [16] zone).ready (asked [16]) [] ∧
      requestKindOf [16] = none := by
  unfold State.ready; decide +kernel

theorem witness_ResetAnswersAndStopsRequests :
    (asks [15] zone).ready (asked [15]) [] ∧ (asks [15] zone).passes .reset ∧
      { zone with request := { zone.request with resetWait := some 5000 } }.settled = true ∧
      { zone with request := { zone.request with resetWait := some 5000 } }.request.resetWait.isSome ∧
      takesRequest .enrol .enrol [] = true := by
  unfold State.ready State.passes; decide +kernel

/-! #### The zone line -/

/-- A pending notice with nothing sent of it. -/
def idleNotice : PendingNotice := ⟨.arrivalRefused, 0, 0, false, 0⟩

theorem witness_MarksSetTheCycleNumber :
    zone.settled = true ∧ zone.line.sending = none ∧ (0xF0 : Byte) = BitVec.ofNat 8 ((15 - 0) * 16 + 0) ∧
      (0x69 : Byte) = BitVec.ofNat 8 ((15 - 9) * 16 + 9) ∧ (∀ n, n ≤ 9 → (0 : Byte) ≠ BitVec.ofNat 8 ((15 - n) * 16 + n)) ∧
      (sends (.beacon zone.beaconContent) false zone).settled = true ∧
      (sends (.beacon zone.beaconContent) false zone).line.sending = some ⟨.beacon zone.beaconContent, [], false⟩ ∧
      (sends (.peer ⟨9, .take qa 1⟩) true zone).settled = true ∧
      (sends (.peer ⟨9, .take qa 1⟩) true zone).line.sending = some ⟨.peer ⟨9, .take qa 1⟩, [], true⟩ := by
  decide +kernel

/-- The answer of a RESET. -/
def resetAnswer : Answer := ⟨0, 1, 15, .done, []⟩

theorem witness_MarksSetTheCycleNumber_queued :
    (sends (.notice 7) false (noting 7 idleNotice zone)).settled = true ∧
      (sends (.notice 7) false (noting 7 idleNotice zone)).line.sending = some ⟨.notice 7, [], false⟩ ∧
      (sends (.notice 7) false (noting 7 idleNotice zone)).pendingNotice 7 = some idleNotice ∧
      (sends (.notice 7) false (noting 7 idleNotice zone)).records 7 = true ∧
      (∀ wait ∈ [none, some 5000],
        let s := sends (.answer resetAnswer) false { zone with request := { zone.request with resetWait := wait } }
        s.settled = true ∧ s.line.sending = some ⟨.answer resetAnswer, [], false⟩ ∧ s.request.resetWait = wait) ∧
      resetAnswer.kind = 15 ∧ resetAnswer.result = .done := by
  decide +kernel

/-- A station that is sending a notice whose source a CONFIGURE has since switched OFF. -/
def switchedOff : State :=
  sends (.notice 7) false (noting 7 { idleNotice with sending := true }
    { zone with request := ⟨some { defaultConfig with levels := defaultConfig.levels.set 7 none }, some 0, none⟩ })

/-- R188: the notice of a source that went OFF is removed at the end of its slot, by a mark too, whatever the outcome. -/
theorem witness_NoticeOfSourceGoneOff :
    switchedOff.settled = true ∧ switchedOff.line.sending = some ⟨.notice 7, [], false⟩ ∧
      switchedOff.pendingNotice 7 = some { idleNotice with sending := true } ∧ switchedOff.records 7 = false ∧
      after (fun t => t.pendingNotice 7) (.cycleMark 0x96) switchedOff = some none ∧
      (∀ accept ∈ [true, false], after (fun t => t.pendingNotice 7) (.slotEnd true accept false) switchedOff = some none) := by
  decide +kernel

theorem witness_SuperframeEndCountsMissedBeacons :
    { zone with line := { zone.line with superframeDue := true } }.line.superframeDue = true ∧
      { zone with line := { zone.line with superframeDue := true } }.line.peers[15]? = some (freshPeer false) := by
  decide +kernel

/-- A peer that has missed so many beacons. -/
def missing (presence : Presence) (missed : Nat) : PeerEntry := ⟨presence, missed, false, none, false, false, false⟩

/-- A configured neighbour whose confirmed bit stands, missing so many beacons, in a state whose flag shows it. -/
def alerting (missed : Nat) (s : State) : State :=
  let t := peered 15 { presentPeer 5 true with missed := missed, neighbour := true } s
  { t with fire := { t.fire with neighbourAlert := true, damperClosed := true } }

theorem witness_PeerGoneBecomesAbsent_flag :
    after (fun t => t.fire.neighbourAlert) (.peerAbsent 15) (alerting 3 zone) = some false ∧
      after (fun t => t.fire.neighbourAlert) (.peerAbsent 15) (peered 15 (missing .present 3) zone) = some false ∧
      zone.fire.neighbourAlert = false := by
  decide +kernel

theorem witness_PeerGoneBecomesAbsent :
    ∀ presence ∈ [Presence.unknown, .present],
      (peered 15 (missing presence 3) zone).line.peers[(15 : Fin 16).val]? = some (missing presence 3) ∧
        3 ≤ (missing presence 3).missed ∧ (missing presence 3).presence ≠ .absent ∧
        (15 : Fin 16).val ≠ (peered 15 (missing presence 3) zone).line.address := by
  decide +kernel

theorem witness_AlarmFieldIsDrivenAndRecorded_flag :
    after (fun t => t.fire.neighbourAlert) (.alarmField 0) (alerting 0 zone) = some false ∧
      after (fun t => t.fire.neighbourAlert) (.alarmField 0) zone = some false := by
  decide +kernel

theorem witness_AlarmFieldIsDrivenAndRecorded :
    zone.settled = true ∧ zone.line.aligned = true ∧ zone.line.address < 16 ∧ State.reset.settled = true ∧
      State.reset.line.aligned = false ∧ zone.line.peers[15]? = some (freshPeer false) := by
  decide +kernel

/-- A beacon. -/
def beacon : Beacon := ⟨true, .resetWait, true, 1024, true, true⟩

theorem witness_BeaconMakesPeerPresent_flag :
    after (fun t => t.fire.neighbourAlert) (.beaconReceived 15 (frameOf 1 17 (beaconBytes beacon)))
        (peered 15 { missing .absent 3 with neighbour := true, confirmed := true } zone) = some true ∧
      after (fun t => t.fire.neighbourAlert) (.beaconReceived 15 (frameOf 1 17 (beaconBytes beacon)))
        (peered 15 (missing .absent 3) zone) = some false := by
  decide +kernel

theorem witness_BeaconMakesPeerPresent :
    zone.settled = true ∧ zone.line.aligned = true ∧ (15 : Fin 16).val ≠ zone.line.address ∧
      zone.line.peers[(15 : Fin 16).val]? = some (freshPeer false) ∧ frameOk 1 (frameOf 1 17 (beaconBytes beacon)) = true ∧
      beaconOf (frameOf 1 17 (beaconBytes beacon)).payload = some beacon ∧ (freshPeer false).presence ≠ .present ∧
      frameOk 1 (frameOf 1 18 (beaconBytes beacon)) = false ∧ frameOk 1 (frameOf 1 17 []) = false ∧
      (peered 15 (presentPeer 0 false) zone).settled = true ∧ (presentPeer 0 false).presence = .present := by
  decide +kernel

/-- A station with so many requests and transfer messages queued. -/
def queued (requests messages : Nat) (s : State) : State :=
  { s with line := { s.line with
    requests := List.replicate requests (asked [11]), peerIn := List.replicate messages ⟨.take, 9, 3, qa ++ [1]⟩ } }

theorem witness_MessagesAreAcceptedByKind :
    ∀ n ∈ [7, 8], (queued n n zone).settled = true ∧ (queued n n zone).line.aligned = true ∧
      (0 : Fin 16).val ≠ (queued n n zone).line.address ∧ (15 : Fin 16).val ≠ (queued n n zone).line.address ∧
      (queued n n zone).addressed 0 3 = true ∧ (queued n n zone).addressed 15 4 = false ∧ frameOk 2 (frameOf 2 3 [11]) = true ∧
      (∀ k ∈ [PeerKind.offer, .take, .decline, .withdraw, .arrived], frameOk (peerKindByte k) (frameOf (peerKindByte k) 3 []) = true) ∧
      (∀ k ∈ [(0 : Byte), 10, 255], frameOk k (frameOf k 3 []) = true ∧ (k.toNat = 0 ∨ 9 < k.toNat)) ∧
      (queued n n zone).configured = true ∧ (queued n n zone).request.gateway = some (0 : Fin 16).val ∧
      (queued n n zone).line.requests.length = n ∧ (queued n n zone).line.peerIn.length = n ∧
      (queued n n State.reset).settled = true ∧ (queued n n State.reset).configured = false ∧
      ¬((queued n n zone).configured = false ∨ (queued n n zone).request.gateway = some (15 : Fin 16).val) := by
  decide +kernel

/-- A message of each row, of its kind, from a slot. -/
def messagesFrom (slot : Fin 16) (f : Byte → SlotFrame) : List (Instr × Byte) :=
  [(.beaconReceived slot (f 1), 1), (.requestReceived slot (f 2), 2), (.peerMessageReceived slot .take (f 6), 6),
    (.ignoredMessage slot .notice (f 4), 4), (.unknownKindMessage slot 10 (f 10), 10)]

/-- A payload for a kind: a beacon's, or none. -/
def payloadOf (kind : Byte) : List Byte := if kind = 1 then beaconBytes beacon else []

theorem witness_MessagesAreAcceptedByKind_discarded :
    peerKindByte .take = 6 ∧ ignoredKindByte .notice = 4 ∧ State.reset.settled = true ∧ State.reset.line.aligned = false ∧
      (∀ m ∈ messagesFrom 15 (fun k => frameOf k 17 (payloadOf k)), after (fun t => decide (t = State.reset)) m.1 State.reset = some true) ∧
      (∀ k ∈ [(1 : Byte), 2, 4, 6, 10], frameOk k (frameOf k 18 (payloadOf k)) = false ∧ frameOk k (frameOf k 17 (payloadOf k)) = true) ∧
      (∀ m ∈ messagesFrom 15 (fun k => frameOf k 18 (payloadOf k)),
        after (fun t => (t.line.acceptance, t.line.requests, t.line.peerIn)) m.1 zone = some (.neither, [], [])) ∧
      (3 : Fin 16).val = zone.line.address ∧
      (∀ m ∈ messagesFrom 3 (fun k => frameOf k 17 (payloadOf k)),
        after (fun t => (t.pendingNotice 5).map (·.content)) m.1 zone = some (some (.addressConflict 3 1 (some m.2))) ∧
          after (fun t => decide (t = { zone with line := { zone.line with slotUsed := true } })) m.1
            { zone with line := { zone.line with slotUsed := true } } = some true) := by
  decide +kernel

theorem witness_MessagesAreAcceptedByKind_addressed :
    zone.addressed 15 3 = true ∧ zone.addressed 15 17 = true ∧ zone.addressed 15 16 = false ∧
      (peered 15 (freshPeer true) zone).addressed 15 16 = true ∧ (peered 15 (freshPeer true) zone).addressed 14 16 = false := by
  decide +kernel

theorem witness_SecondStationShowsAsConflict :
    zone.settled = true ∧ zone.line.aligned = true ∧ zone.line.slotUsed = false ∧ frameOk 4 (frameOf 4 3 []) = true ∧
      State.reset.settled = true ∧ State.reset.line.aligned = false ∧
      (sends (.notice 0) false zone).line.sending = some ⟨.notice 0, [], false⟩ ∧ (sends (.notice 0) false zone).settled = true ∧
      (sends (.notice 0) true zone).line.sending = some ⟨.notice 0, [], true⟩ ∧ (sends (.notice 0) true zone).settled = true ∧
      (sends (.notice 0) true zone).request.resetWait = none ∧ zone.line.sending = none := by
  decide +kernel

theorem witness_ArbiterFillsTheOwnSlot_beacon :
    { zone with line := { zone.line with cycle := 0 } }.settled = true ∧ zone.line.cycle ≠ 0 ∧
      zone.line.sending = none ∧ zone.line.peerOut = [] ∧ zone.line.answers = [] := by
  decide +kernel

/-- R164: a station that is not aligned, with an answer to send, and one that is sending. -/
theorem witness_ArbiterFillsTheOwnSlot_nothing :
    let s := { zone with line := { zone.line with aligned := false, answers := [⟨0, 1, 1, .done, []⟩] } }
    s.settled = true ∧ s.line.aligned = false ∧ after (fun t => t.line.sending) .slotStart s = some none ∧
      (sends (.beacon beacon) false zone).settled = true ∧ (sends (.beacon beacon) false zone).line.sending ≠ none := by
  decide +kernel

theorem witness_ArbiterFillsTheOwnSlot_urgent :
    (noting 1 idleNotice zone).pendingNotice 1 = some idleNotice ∧ (noting 1 idleNotice zone).level 1 = some 0 ∧
      ∀ k y, k < 1 → (noting 1 idleNotice zone).pendingNotice k = some y → (noting 1 idleNotice zone).level k ≠ some 0 := by
  refine ⟨by decide +kernel, by decide +kernel, fun k y hk h => ?_⟩
  obtain rfl : k = 0 := by omega
  exact absurd (h.symm.trans (show (noting 1 idleNotice zone).pendingNotice 0 = none from rfl)) (by simp)

theorem witness_ArbiterFillsTheOwnSlot_queues :
    { zone with line := { zone.line with peerOut := [⟨9, .take qa 1⟩], answers := [⟨0, 1, 1, .done, []⟩] } }.line.peerOut =
        ⟨9, .take qa 1⟩ :: [] ∧
      { zone with line := { zone.line with answers := [⟨0, 1, 1, .done, []⟩] } }.line.answers = ⟨0, 1, 1, .done, []⟩ :: [] := by
  decide +kernel

/-- Only source 7 pends in the state that has one notice there. -/
theorem noting_other (k : Nat) (y : PendingNotice) (h : (noting 7 idleNotice zone).pendingNotice k = some y) : k = 7 := by
  have hall : ∀ k : Fin 16, k.val ≠ 7 → (noting 7 idleNotice zone).pendingNotice k.val = none := by decide +kernel
  by_cases hk : k < 16
  · by_contra h7
    rw [hall ⟨k, hk⟩ h7] at h
    cases h
  · have : (noting 7 idleNotice zone).pendingNotice k = none := by
      have hlen : (noting 7 idleNotice zone).notices.pending.length = 16 := by decide +kernel
      simp [State.pendingNotice, List.getElem?_eq_none (show (noting 7 idleNotice zone).notices.pending.length ≤ k by omega)]
    rw [this] at h
    cases h

theorem witness_ArbiterFillsTheOwnSlot_notice :
    (noting 7 idleNotice zone).settled = true ∧ (noting 7 idleNotice zone).pendingNotice 7 = some idleNotice ∧
      (noting 7 idleNotice zone).level 7 = some 2 ∧
      (∀ k y, (noting 7 idleNotice zone).pendingNotice k = some y → (noting 7 idleNotice zone).level k ≠ some 0) ∧
      ∀ k y j, (noting 7 idleNotice zone).pendingNotice k = some y → (noting 7 idleNotice zone).level k = some j →
        2 < j ∨ 2 = j ∧ 7 ≤ k := by
  have h7 : (noting 7 idleNotice zone).level 7 = some 2 := by decide +kernel
  refine ⟨by decide +kernel, by decide +kernel, h7, fun k y h => ?_, fun k y j h hj => ?_⟩
  · rw [noting_other k y h, h7]; decide
  · obtain rfl := noting_other k y h
    rw [h7] at hj; cases hj; exact Or.inr ⟨rfl, Nat.le_refl _⟩

theorem witness_SlotEndHandsTheOutcomeBack :
    (sends (.answer ⟨0, 1, 1, .done, []⟩) false zone).line.sending = some ⟨.answer ⟨0, 1, 1, .done, []⟩, [], false⟩ ∧
      (sends (.answer ⟨0, 1, 1, .done, []⟩) false zone).settled = true ∧ (1 : Byte) ≠ 15 ∧
      (sends (.peer ⟨9, .take qa 1⟩) false zone).line.sending = some ⟨.peer ⟨9, .take qa 1⟩, [], false⟩ ∧
      (sends (.notice 7) false (noting 7 idleNotice zone)).line.sending = some ⟨.notice 7, [], false⟩ ∧
      (sends (.notice 7) false (noting 7 idleNotice zone)).pendingNotice 7 = some idleNotice ∧
      (sends (.notice 7) false (noting 7 idleNotice zone)).records 7 = true ∧ zone.request.resetWait = none := by
  decide +kernel

theorem witness_SlotEndHandsTheOutcomeBack_reset :
    (sends (.answer resetAnswer) false { zone with request := { zone.request with resetWait := some 5000 } }).settled = true ∧
      resetAnswer.kind = 15 ∧ resetAnswer.result = .done ∧
      (sends (.answer resetAnswer) false
        { zone with request := { zone.request with resetWait := some 5000 } }).request.resetWait.isSome := by
  decide +kernel

/-- The content at the end of the slot: nothing, a beacon, a RESET answered NOT AUTHORIZED, and its DONE with no RESET waiting. -/
theorem witness_SlotEndHandsTheOutcomeBack_forms :
    zone.settled = true ∧ zone.line.sending = none ∧
      (sends (.beacon beacon) false zone).settled = true ∧
      (sends (.beacon beacon) false zone).line.sending = some ⟨.beacon beacon, [], false⟩ ∧
      (∀ a ∈ [({ resetAnswer with result := .notAuthorized } : Answer), resetAnswer], (sends (.answer a) false zone).settled = true ∧
        (sends (.answer a) false zone).line.sending = some ⟨.answer a, [], false⟩ ∧
        (a.kind ≠ 15 ∨ a.result ≠ .done ∨ (sends (.answer a) false zone).request.resetWait = none)) ∧
      after (fun t => t.line.answers) (.slotEnd true false false)
        (sends (.answer { resetAnswer with result := .notAuthorized }) false
          { zone with line := { zone.line with answers := [{ resetAnswer with result := .notAuthorized }] } }) = some [] := by
  decide +kernel

/-- R174, R184: what was sent reads back differently, then or as noted before, with no RESET waiting and while one waits. -/
theorem witness_SlotEndHandsTheOutcomeBack_differs :
    ∀ conflict ∈ [true, false], ∀ wait ∈ [none, some 5000],
      let s := sends (.answer resetAnswer) conflict { zone with request := { zone.request with resetWait := wait } }
      s.settled = true ∧ s.line.sending = some ⟨.answer resetAnswer, [], conflict⟩ ∧ s.request.resetWait = wait ∧
        after (fun t => (t.pendingNotice 5).isSome) (.slotEnd conflict true false) s = some wait.isNone := by
  decide +kernel

theorem witness_EventsCoalesceOnTheirSource :
    zone.notices.pending.length = 16 ∧ zone.records (Event.arrivalRefused).source = true ∧
      zone.pendingNotice (Event.arrivalRefused).source = none ∧ State.reset.records (Event.arrivalRefused).source = false ∧
      (noting (Event.arrivalRefused).source { idleNotice with repeats := 255, sending := true, inSlot := 256 } zone).pendingNotice
        (Event.arrivalRefused).source = some { idleNotice with repeats := 255, sending := true, inSlot := 256 } := by
  decide +kernel

/-! #### Transfers -/

/-- An OFFER of QA0012345M with a presence byte. -/
def offerFrom (id : Ident) (presence : Byte) : PeerIn := ⟨.offer, 9, 3, id ++ [62, presence, 0, 40, 0, 35, 190]⟩

theorem witness_OfferIsDeclinedOrBegun :
    ∀ p ∈ [(0 : Byte), 3, 4],
      (tells (offerFrom qa p) (inSeq .preAlert zone)).settled = true ∧
        (tells (offerFrom qa p) (inSeq .preAlert zone)).line.peerOut.length < 16 ∧
        (tells (offerFrom qa p) (inSeq .preAlert zone)).line.peerIn = offerFrom qa p :: [] ∧ (offerFrom qa p).kind = .offer ∧
        (offerFrom qa p).dest ≤ 15 ∧ qa.length = 10 ∧ low.length = 10 ∧ identOk qa = true ∧ identOk low = false ∧
        seqCode (tells (offerFrom qa p) (inSeq .preAlert zone)).fire.seq < 2 ∧
        (tells (offerFrom qa p) zone).known qa = false ∧ (tells (offerFrom qa p) zone).occupancy < 1024 ∧
        (tells (offerFrom qa p) zone).transfer.entries.length < 8 := by
  decide +kernel

theorem witness_OfferIsDeclinedOrBegun_declined :
    2 ≤ seqCode (tells (offerFrom qa 3) (inSeq .alarm1 zone)).fire.seq ∧ (tells (offerFrom qa 3) (inSeq .alarm1 zone)).settled = true ∧
      (holding [recordOf qa (.shelved none)] zone).known qa = true ∧ (holding [recordOf qa (.shelved none)] zone).settled = true ∧
      (holding (List.replicate 1024 (recordOf vk (.shelved none))) zone).known qa = false ∧
      1024 ≤ (holding (List.replicate 1024 (recordOf vk (.shelved none))) zone).occupancy ∧
      (holding (List.replicate 1024 (recordOf vk (.shelved none))) zone).settled = true ∧
      8 ≤ (entries (List.replicate 8 ⟨vk, 9, 1, .taken 5⟩) zone).transfer.entries.length ∧
      (entries (List.replicate 8 ⟨vk, 9, 1, .taken 5⟩) zone).settled = true := by
  decide +kernel

/-- Messages that R145 discards when it takes them, each with its row. -/
def discarded : List (Instr × PeerIn) :=
  [(.offer, { offerFrom qa 3 with dest := 16 }), (.offer, ⟨.offer, 9, 3, qa⟩), (.take, ⟨.take, 9, 17, qa ++ [62]⟩),
    (.take, ⟨.take, 9, 3, malformedId ++ [62]⟩), (.decline, ⟨.decline, 9, 3, qa ++ [62]⟩), (.decline, ⟨.decline, 9, 3, malformedId ++ [62, 0]⟩),
    (.withdraw, ⟨.withdraw, 9, 3, qa ++ [62, 0]⟩), (.withdraw, ⟨.withdraw, 9, 3, malformedId ++ [62]⟩),
    (.arrived, ⟨.arrived, 9, 16, qa ++ [62]⟩), (.arrived, ⟨.arrived, 9, 3, malformedId ++ [62]⟩)]

/-- R145: such a message leaves the input queue with nothing else done, and waits while the output queue is full. -/
theorem witness_OfferIsDeclinedOrBegun_screened :
    ∀ m ∈ discarded, (tells m.2 zone).settled = true ∧ (tells m.2 zone).line.peerIn = m.2 :: [] ∧
      (16 ≤ m.2.dest ∨ m.2.payload.length ≠ (match m.2.kind with | .offer => 17 | .decline => 12 | _ => 11) ∨
        m.2.kind ≠ .offer ∧ identOk (m.2.payload.take 10) = false) ∧
      (tells m.2 zone).line.peerOut.length < 16 ∧
      after (fun t => decide (t = (tells m.2 zone).peerTaken [])) m.1 (tells m.2 zone) = some true ∧
      let full := { tells m.2 zone with line := { (tells m.2 zone).line with peerOut := List.replicate 16 ⟨9, .take vk 1⟩ } }
      full.settled = true ∧ 16 ≤ full.line.peerOut.length ∧ after (fun t => decide (t = full)) m.1 full = some true := by
  decide +kernel

theorem witness_TakeMovesOfferOrIsLate :
    (tells ⟨.take, 9, 15, qa ++ [62]⟩ zone).peerReady ⟨.take, 9, 15, qa ++ [62]⟩ [] ∧ identOk qa = true ∧
      (∀ st ∈ [TransferState.offered (some 3000), .taken 30],
        (entries [⟨qa, 9, (62 : Byte).toNat, st⟩] (tells ⟨.take, 9, 15, qa ++ [62]⟩ zone)).settled = true ∧
        (entries [⟨qa, 9, (62 : Byte).toNat, st⟩] (tells ⟨.take, 9, 15, qa ++ [62]⟩ zone)).entry qa =
          some ⟨qa, 9, (62 : Byte).toNat, st⟩) ∧
      (tells ⟨.take, 9, 15, qa ++ [62]⟩ zone).entry qa = none := by
  unfold State.peerReady; decide +kernel

/-- The OUT entry of the worked transfer. -/
def offeredEntry (wait : Option Nat) : TransferEntry := ⟨qa, 9, 62, .offered wait⟩

/-- A station with the worked transfer OFFERED and a message waiting. -/
def offering (wait : Option Nat) (m : PeerIn) : State :=
  entries [offeredEntry wait] (holding [recordOf qa (.transferring ⟨9, 62⟩ ⟨.conditioning 40, some ⟨4, 20⟩⟩)] (tells m zone))

theorem witness_EndedOfferKeepsTheCartridge :
    ∀ wait ∈ [none, some 3000], ∀ sender ∈ [9, 10],
      let m : PeerIn := ⟨.decline, sender, 3, qa ++ [BitVec.ofNat 8 62, 5]⟩
      let s := offering wait m
      s.settled = true ∧ s.line.peerOut.length < 16 ∧ s.line.peerIn = m :: [] ∧ s.entry qa = some (offeredEntry wait) ∧
        (offeredEntry wait).number < 256 ∧ identOk qa = true ∧
        s.find qa = some (recordOf qa (.transferring ⟨9, 62⟩ ⟨.conditioning 40, some ⟨4, 20⟩⟩)) := by
  decide +kernel

/-- A station with a message from station 9 about QA0012345M, under an entry. -/
def telling (k : PeerKind) (table : List TransferEntry) : State := entries table (tells ⟨k, 9, 15, qa ++ [62]⟩ zone)

theorem witness_EndedOfferKeepsTheCartridge_late :
    let m : PeerIn := ⟨.decline, 9, 15, qa ++ [62, 255]⟩
    ∀ table ∈ [[], [(⟨qa, 9, 62, .taken 1⟩ : TransferEntry)]],
        (entries table (tells m zone)).settled = true ∧ (entries table (tells m zone)).line.peerOut.length < 16 ∧
          (entries table (tells m zone)).line.peerIn = m :: [] ∧ (entries table (tells m zone)).entry qa = table.head? := by
  decide +kernel

/-- R144, R153: a DECLINE for an entry of another number, of another sender, and for one already TAKEN. -/
theorem witness_EndedOfferKeepsTheCartridge_unmatched :
    let m : PeerIn := ⟨.decline, 9, 15, qa ++ [62, 5]⟩
    ∀ e ∈ [(⟨qa, 9, 63, .offered none⟩ : TransferEntry), ⟨qa, 10, 62, .offered none⟩, ⟨qa, 9, 62, .awaitingArrival 1⟩],
      (entries [e] (tells m zone)).settled = true ∧ (entries [e] (tells m zone)).line.peerOut.length < 16 ∧
        (entries [e] (tells m zone)).line.peerIn = m :: [] ∧ (entries [e] (tells m zone)).entry qa = some e ∧
        (e.peer ≠ m.sender ∨ e.number ≠ (62 : Byte).toNat ∨ e.state = .awaitingArrival 1) := by
  decide +kernel

/-- R144, R154: an ARRIVED and a WITHDRAW for an entry of another number, of another peer, and in another state. -/
theorem witness_EndedTransferDeletesTheRecord_unmatched :
    (∀ e ∈ [(⟨qa, 9, 63, .taken 1⟩ : TransferEntry), ⟨qa, 10, 62, .taken 1⟩, ⟨qa, 9, 62, .offered none⟩],
      (telling .arrived [e]).peerReady ⟨.arrived, 9, 15, qa ++ [62]⟩ [] ∧ (telling .arrived [e]).entry qa = some e ∧
        (e.peer ≠ 9 ∨ e.number ≠ (62 : Byte).toNat ∨ e.state = .offered none)) ∧
    ∀ e ∈ [(⟨qa, 9, 63, .awaitingArrival 1⟩ : TransferEntry), ⟨qa, 10, 62, .awaitingArrival 1⟩, ⟨qa, 9, 62, .taken 1⟩],
      (telling .withdraw [e]).peerReady ⟨.withdraw, 9, 15, qa ++ [62]⟩ [] ∧ (telling .withdraw [e]).entry qa = some e ∧
        (e.peer ≠ 9 ∨ e.number ≠ (62 : Byte).toNat ∨ e.state = .taken 1) := by
  unfold State.peerReady; decide +kernel

theorem witness_EndedTransferDeletesTheRecord :
    (telling .arrived [⟨qa, 9, 62, .taken 1⟩]).peerReady ⟨.arrived, 9, 15, qa ++ [62]⟩ [] ∧
      (telling .arrived [⟨qa, 9, 62, .taken 1⟩]).entry qa = some ⟨qa, 9, (62 : Byte).toNat, .taken 1⟩ ∧
      (telling .withdraw [⟨qa, 9, 62, .awaitingArrival 1⟩]).peerReady ⟨.withdraw, 9, 15, qa ++ [62]⟩ [] ∧
      (telling .withdraw [⟨qa, 9, 62, .awaitingArrival 1⟩]).entry qa = some ⟨qa, 9, (62 : Byte).toNat, .awaitingArrival 1⟩ ∧
      (telling .withdraw []).entry qa = none ∧ (telling .arrived []).entry qa = none ∧ (telling .arrived []).find qa = none ∧
      (holding [recordOf qa (.suspect none none .transitLost)] (telling .arrived [])).find qa =
        some (recordOf qa (.suspect none none .transitLost)) ∧
      (holding [recordOf qa (.suspect none none .transitLost)] (telling .arrived [])).settled = true := by
  unfold State.peerReady; decide +kernel

theorem witness_EndedTransferDeletesTheRecord_abandoned :
    (entries [⟨qa, 9, 62, .awaitingArrival 0⟩] zone).entry qa = some ⟨qa, 9, 62, .awaitingArrival 0⟩ := by decide +kernel

theorem witness_OverdueTransferIsSuspect :
    let s := entries [⟨qa, 9, 62, .taken 0⟩] (holding [recordOf qa (.transferring ⟨9, 62⟩ ⟨.conditioning 40, none⟩)] zone)
    s.entry qa = some ⟨qa, 9, 62, .taken 0⟩ ∧ s.find qa = some (recordOf qa (.transferring ⟨9, 62⟩ ⟨.conditioning 40, none⟩)) := by
  decide +kernel

theorem witness_OfferOutcomeStartsOrEndsTheOffer :
    (offering none ⟨.take, 9, 3, []⟩).entry (offeredEntry none).id = some (offeredEntry none) ∧
      (offeredEntry none).state = .offered none ∧ (offering none ⟨.take, 9, 3, []⟩).entry vk = none := by
  decide +kernel

/-- R148: the outcome of an OFFER with no entry, with one of another number, and with one that awaits no outcome (log 48). -/
theorem witness_OfferOutcomeStartsOrEndsTheOffer_discarded :
    (∀ e, zone.entry qa = some e → e.number ≠ 62 ∨ e.state ≠ .offered none) ∧
      ∀ x ∈ [(⟨qa, 9, 63, .offered none⟩ : TransferEntry), ⟨qa, 9, 62, .taken 30⟩, ⟨qa, 9, 62, .offered (some 3000)⟩],
        (entries [x] zone).entry qa = some x ∧ (x.number ≠ 62 ∨ x.state ≠ .offered none) := by
  refine ⟨fun e h => ?_, by decide +kernel⟩
  rw [show zone.entry qa = none by decide +kernel] at h
  cases h

theorem witness_OfferOutcomeStartsOrEndsTheOffer_record :
    (offering none ⟨.take, 9, 3, []⟩).find (offeredEntry none).id =
        some (recordOf qa (.transferring ⟨9, 62⟩ ⟨.conditioning 40, some ⟨4, 20⟩⟩)) ∧
      (entries [offeredEntry none] zone).entry (offeredEntry none).id = some (offeredEntry none) ∧
      (entries [offeredEntry none] zone).find (offeredEntry none).id = none := by
  decide +kernel

theorem witness_OfferOutcomeStartsOrEndsTheOffer_take :
    (entries [⟨qa, 9, 62, .awaitingArrival 1⟩] zone).entry qa = some ⟨qa, 9, 62, .awaitingArrival 1⟩ ∧
      (∀ e, (entries [⟨qa, 9, 62, .taken 1⟩] zone).entry qa = some e → e.peer ≠ 9 ∨ e.number ≠ 62 ∨ e.direction = .out) ∧
      SendOutcome.unanswered ≠ .accepted ∧ SendOutcome.refused ≠ .accepted := by
  refine ⟨by decide +kernel, fun e h => ?_, by decide, by decide⟩
  have : (entries [⟨qa, 9, 62, .taken 1⟩] zone).entry qa = some ⟨qa, 9, 62, .taken 1⟩ := by decide +kernel
  rw [this] at h; cases h
  exact Or.inr (Or.inr rfl)

/-! #### The dock -/

theorem witness_CaseArrivalStartsOrIsRefused :
    zone.settled = true ∧ zone.dock.session = .idle ∧ zone.configured = true ∧ zone.fire.neighbourAlert = false ∧
      zone.dock.outstanding = none ∧ (inSeq .preAlert zone).settled = true ∧ seqCode (inSeq .preAlert zone).fire.seq < 2 ∧
      (inSeq .alarm1 zone).settled = true ∧ 2 ≤ seqCode (inSeq .alarm1 zone).fire.seq ∧ State.reset.settled = true ∧
      State.reset.configured = false ∧ (inSession .waking none zone).settled = true ∧ (inSession .waking none zone).dock.session ≠ .idle := by
  decide +kernel

/-- R47, R50: an admitted arrival while the POLL of a session that has ended is outstanding, with its ABORT held. -/
theorem witness_CaseArrivalStartsOrIsRefused_outstanding :
    let ended := inSession .idle (some (.poll .none)) zone
    let s : State := { ended with dock := { ended.dock with pendingAbort := some .cancelled } }
    s.settled = true ∧ s.dock.session = .idle ∧ s.configured = true ∧ seqCode s.fire.seq < 2 ∧ s.fire.neighbourAlert = false ∧
      s.dock.outstanding = some ⟨.poll .none, 0⟩ ∧
      after (fun t => (t.dock.session, t.dock.outstanding, t.dock.pendingAbort)) .caseArrival s =
        some (.waking, some ⟨.poll .none, 0⟩, some .cancelled) := by
  decide +kernel

theorem witness_UncommittedEndsRevertTheSession :
    ∀ st ∈ [SessionState.waking, .identifying, .awaitingAuth, .loading, .sealing],
      (inSession st none zone).settled = true ∧ (inSession st none zone).dock.session.beforeCommit = true ∧
        (inSession st none zone).dock.session = st ∧ (inSession st none zone).dock.scans = [] ∧
        (inSession st none zone).dock.pendingAbort = none ∧ (inSession .committing none zone).settled = true ∧
        (inSession .committing none zone).dock.session = .committing ∧ zone.settled = true ∧ zone.dock.session = .idle := by
  decide +kernel

theorem witness_DockSendsTheFrameOfItsState :
    ∀ st ∈ [SessionState.idle, .waking, .identifying, .awaitingAuth, .loading, .sealing, .committing],
      (departing st none).settled = true ∧ (departing st none).dock.outstanding = none ∧ (departing st none).dock.session = st ∧
        (departing st none).dock.scans ≠ [] ∧ (departing st (some (.poll .none))).settled = true ∧
        (departing st (some (.poll .none))).dock.outstanding ≠ none := by
  decide +kernel

/-- A station in a session with a fault count, at the last millisecond in which an answer counts. -/
def faulty (st : SessionState) (n : Nat) : State :=
  let s := atTime 500 (departing st (some (.poll .none)))
  { s with dock := { s.dock with faults := n } }

theorem witness_ThirdFrameFaultEndsTheSession :
    ∀ st ∈ [SessionState.idle, .waking, .identifying, .awaitingAuth, .loading, .sealing, .committing], ∀ n ∈ [1, 2],
      (faulty st n).settled = true ∧ (faulty st n).dock.outstanding = some ⟨.poll .none, 0⟩ ∧ (faulty st n).dock.session = st ∧
        (faulty st n).dock.pendingAbort = none ∧ (faulty st n).dock.faults = n ∧ (faulty st n).now ≤ 0 + 500 := by
  decide +kernel

theorem witness_ThirdFrameFaultEndsTheSession_late :
    (atTime 501 (faulty .sealing 0)).settled = true ∧ (atTime 501 (faulty .sealing 0)).dock.outstanding = some ⟨.poll .none, 0⟩ ∧
      0 + 500 < (atTime 501 (faulty .sealing 0)).now ∧ (departing .sealing none).settled = true ∧
      (departing .sealing none).dock.outstanding = none := by
  decide +kernel

theorem witness_ThirdFrameFaultEndsTheSession_bytes :
    (∀ f, caseFrameOf [] = some f → (caseFrameOk f && admits (.poll .none) f) = false) ∧
      ∀ f, caseFrameOf CaseFrame.awake.bytes = some f → (caseFrameOk f && admits (.poll .none) f) = false := by
  have hnone : caseFrameOf [] = none := by decide +kernel
  have hawake : caseFrameOf CaseFrame.awake.bytes = some .awake := by decide +kernel
  refine ⟨fun f h => ?_, fun f h => ?_⟩
  · rw [hnone] at h; cases h
  · rw [hawake] at h; cases h; decide

/-- A typed answer of a kind that the frame does not admit, and an IDENTITY that is not well formed. -/
theorem witness_ThirdFrameFaultEndsTheSession_typed :
    caseAnswerOf (.done 1) = some (.done 1) ∧ (caseFrameOk (.done 1) && admits (.poll .none) (.done 1)) = false ∧
      caseAnswerOf (.identity 0 1 0 1 []) = some (.identity 0 1 0 1 []) ∧
      (caseFrameOk (.identity 0 1 0 1 []) && admits (.poll .none) (.identity 0 1 0 1 [])) = false ∧
      after (fun t => (t.dock.outstanding, t.dock.faults)) (.done 1) (faulty .loading 1) = some (none, 2) ∧
      after (fun t => t.dock.session) (.done 1) (faulty .loading 2) = some .idle := by
  decide +kernel

/-- R50: the ABORT held for an exchange that an ended session left follows its answer. -/
theorem witness_ThirdFrameFaultEndsTheSession_idle :
    let s := faulty .idle 0
    let held := { s with dock := { s.dock with pendingAbort := some .fire } }
    held.settled = true ∧ held.dock.outstanding = some ⟨.poll .none, 0⟩ ∧ held.dock.session = .idle ∧
      held.now ≤ 0 + 500 ∧ caseAnswerOf .nothing = some .nothing ∧
      (∀ c ∈ [Instr.nothing, .dockAnswerTimeout, .malformedCaseFrame []],
        after (fun t => (t.dock.outstanding, t.dock.pendingAbort, t.dock.lastFrame)) c held = some (none, none, some (.abort .fire))) := by
  decide +kernel

/-- An answer for which a state has no use ends the exchange alone, and in SEALING brings the DIGEST at once. -/
theorem witness_AnswersMoveTheSessionOn_noUse :
    (∀ c ∈ [Instr.nothing, .scan qa, .identity 1 1 0 1 []], ∀ st ∈ [SessionState.identifying, .awaitingAuth, .loading, .sealing],
      (faulty st 2).settled = true ∧ (faulty st 2).dock.outstanding = some ⟨.poll .none, 0⟩ ∧ (faulty st 2).dock.pendingAbort = none ∧
        (faulty st 2).now ≤ 0 + 500 ∧ (faulty st 2).dock.session = st ∧ (caseAnswerOf c).isSome ∧
        (caseAnswerOf c).all caseFrameOk = true) ∧
      after (fun t => (t.dock.session, t.dock.outstanding, t.dock.faults)) .nothing (faulty .identifying 2) = some (.identifying, none, 0) ∧
      after (fun t => (t.dock.session, t.dock.outstanding, t.dock.faults)) (.identity 1 1 0 1 []) (faulty .awaitingAuth 2) =
        some (.awaitingAuth, none, 0) ∧
      after (fun t => (t.dock.session, t.dock.scans.length, t.dock.outstanding)) (.scan vk) (faulty .sealing 2) =
        some (.sealing, 1, some ⟨.digest 1 (crc qa), 500⟩) ∧
      caseFrameOf CaseFrame.nothing.bytes = some .nothing := by
  decide +kernel

theorem witness_AnswersMoveTheSessionOn :
    (∀ f ∈ [(SessionState.waking, DockFrame.wake), (.identifying, .poll .none), (.loading, .poll .accepted)],
      let s := atTime 500 (inSession f.1 (some f.2) zone)
      s.settled = true ∧ s.dock.outstanding = some ⟨f.2, 0⟩ ∧ s.dock.pendingAbort = none ∧ s.dock.session = f.1 ∧ s.now ≤ 0 + 500) ∧
      1 ≤ (1 : BitVec 32).toNat ∧ (999999 : BitVec 24).toNat ≤ 999999 ∧ (intervalsOf 2).length ≤ 255 := by
  decide +kernel

/-- The clamp that the statement names, met at both ends of each range and beyond. -/
theorem witness_KeptSummaryIsClamped :
    ∃ clamp : RawInterval → Interval, ∀ i, clamp i =
      ⟨if 240 < i.minutes.toNat then 240 else i.minutes.toNat, if 1000 < i.rh.toNat then 1000 else i.rh.toNat,
        if i.temperature.toInt < -200 then -200 else if 600 < i.temperature.toInt then 600 else i.temperature.toInt⟩ :=
  ⟨_, fun _ => rfl⟩

/-- A session in LOADING with an intent, a scan list and QA0012345M in a state. -/
def loadingWith (intent : Intent) (scans : List ScanEntry) (l : List Record) (q : Seq) : State :=
  let s := atTime 500 (inSeq q (inSession .loading (some (.poll .none)) (holding l zone)))
  { s with dock := { s.dock with intent := some intent, manifest := some 1, scans := scans } }

theorem witness_ScansAreJudgedInOrder :
    ∀ intent ∈ [Intent.departing, .returning], ∀ q ∈ [Seq.quiet, .alarm1],
      ∀ l ∈ [[], [recordOf qa (.reserved lastPlace 1)], [recordOf qa (.reserved lastPlace 2)], [recordOf qa (.out ⟨40117, 1, 1⟩)]],
        ∀ n ∈ [31, 32],
          let s := loadingWith intent (List.replicate n ⟨vk, .record false⟩) l q
          s.settled = true ∧ s.dock.outstanding = some ⟨.poll .none, 0⟩ ∧ s.dock.pendingAbort = none ∧ s.dock.session = .loading ∧
            qa.length = 10 ∧ low.length = 10 ∧ identOk qa = true ∧ identOk low = false ∧ s.scanned qa = false ∧ s.scanned vk = true ∧
            s.dock.intent = some intent ∧ s.dock.manifest = some 1 ∧ s.dock.scans.length = n ∧ s.occupancy < 1024 ∧
            s.now ≤ 0 + 500 := by
  decide +kernel

theorem witness_ScansAreJudgedInOrder_records :
    (loadingWith .departing [] [recordOf qa (.reserved lastPlace 1)] .quiet).find qa = some (recordOf qa (.reserved lastPlace 1)) ∧
      (loadingWith .returning [] [recordOf qa (.out ⟨40117, 1, 1⟩)] .quiet).find qa = some (recordOf qa (.out ⟨40117, 1, 1⟩)) ∧
      (loadingWith .returning [] [recordOf qa (.shelved none)] .quiet).find qa = some (recordOf qa (.shelved none)) ∧
      (loadingWith .returning [] (List.replicate 1023 (recordOf vk (.shelved none))) .quiet).find qa = none ∧
      (loadingWith .returning [] (List.replicate 1023 (recordOf vk (.shelved none))) .quiet).occupancy < 1024 ∧
      1024 ≤ (loadingWith .returning [] (List.replicate 1024 (recordOf vk (.shelved none))) .quiet).occupancy ∧
      (loadingWith .returning [] (List.replicate 1024 (recordOf vk (.shelved none))) .quiet).find qa = none ∧
      (loadingWith .returning [] (List.replicate 1024 (recordOf vk (.shelved none))) .quiet).settled = true := by
  decide +kernel

theorem witness_ScansAreJudgedInOrder_other :
    ∀ x p n, (loadingWith .departing [] [] .quiet).find qa = some x → x.st = .reserved p n →
      (loadingWith .departing [] [] .quiet).dock.manifest ≠ some n := by
  intro x p n h
  have : (loadingWith .departing [] [] .quiet).find qa = none := by decide +kernel
  rw [this] at h; cases h

theorem witness_DepartEchoCommits :
    let s := atTime 500 (departing .sealing (some (.digest 1 0)))
    s.now ≤ 0 + 500 ∧ s.settled = true ∧ s.dock.outstanding = some ⟨.digest 1 0, 0⟩ ∧ s.dock.pendingAbort = none ∧ s.dock.session = .sealing ∧
      s.dock.intent = some .departing ∧ s.dock.identity = some ⟨40117, 204556, 65535, .departing, []⟩ ∧ s.dock.manifest = some 1 ∧
      s.dock.scans.length ≤ 32 ∧ s.dock.scans.all s.entryReady = true := by
  decide +kernel

/-- A RETURN session in SEALING with one record and one unregistered entry. -/
def returning : State :=
  let s := atTime 500 (inSession .sealing (some (.digest 2 0)) (holding [recordOf qa (.returning ⟨40117, 312, 0⟩)] zone))
  { s with dock := { s.dock with
    intent := some .returning, identity := some ⟨40117, 204556, 312, .returning, [⟨240, 1000, 600⟩]⟩,
    scans := [⟨qa, .record false⟩, ⟨vk, .unregistered⟩] } }

theorem witness_ReturnEchoSettlesOrMismatchReverts :
    returning.settled = true ∧ returning.dock.outstanding = some ⟨.digest 2 0, 0⟩ ∧ returning.dock.pendingAbort = none ∧
      returning.dock.session = .sealing ∧ returning.dock.identity = some ⟨40117, 204556, 312, .returning, [⟨240, 1000, 600⟩]⟩ ∧
      returning.dock.scans.length ≤ 32 ∧ returning.dock.intent = some .returning ∧
      returning.dock.scans.all returning.entryReady = true ∧ (returning.dock.scans.map (·.id)).Nodup ∧
      (1 : Byte).toNat ≠ returning.dock.scans.length ∧ returning.now ≤ 0 + 500 := by
  decide +kernel

/-- The worked computation of chapter 4 meets the premises: 26,300 points over the divisor 128 is 206 rounded up. -/
theorem witness_SettlingClassifiesByExposureAndCount :
    (26300 : Nat) ≤ 206 * chapter4.divisor ∧ (∀ k, 26300 ≤ k * chapter4.divisor → 206 ≤ k) ∧
      266 = min (chapter4.baseHold + 206) chapter4.ceiling ∧
      26300 = min 16777215 (24300 + min 16777215 (chapter4.uncovered * (1260 - 1000 - (90 + 120 + 30)))) := by
  have hk : chapter4.divisor = 128 := rfl
  refine ⟨by decide, fun k h => ?_, by decide, by decide⟩
  rw [hk] at h
  omega

theorem witness_DoneEndsTheHandover :
    let s := atTime 500 (departing .committing (some .commit))
    s.now ≤ 0 + 500 ∧ s.settled = true ∧ s.dock.outstanding = some ⟨.commit, 0⟩ ∧ s.dock.pendingAbort = none ∧ s.dock.session = .committing ∧
      s.dock.identity = some ⟨40117, 204556, 65535, .departing, []⟩ ∧ (0 : Word16).toNat = (65535 + 1) % 65536 ∧
      { zone with dock := { zone.dock with indicator := .refused } }.settled = true := by
  decide +kernel

/-- R43, R70: the case taken out in COMMITTING, with the COMMIT outstanding and after it timed out; and an indicator that is not REFUSED. -/
theorem witness_DoneEndsTheHandover_removal :
    ∀ frame ∈ [some DockFrame.commit, none],
      let s := departing .committing frame
      s.settled = true ∧ s.dock.session = .committing ∧ s.dock.outstanding.isSome = frame.isSome ∧ s.dock.indicator ≠ .refused ∧
        after (fun t => (t.dock.session, t.dock.outstanding)) .caseRemoval s = some (.idle, none) := by
  decide +kernel

/-! #### The climate and the fire -/

/-- A station in the midst of a round at a time-line second, its probe 1 as given. -/
def polling (asked start : Nat) (p : ProbeRecord) : State :=
  { zone with climate := { zone.climate with
    roundStart := start, round := some ⟨asked, 0, []⟩, probes := [p, p, p, p] } }

/-- A station between two rounds, before and at the start of the next. -/
theorem witness_ProbeExchangesFollowTheTable_start :
    ∀ n ∈ [1999, 2000],
      let s := atTime n { zone with climate := { coldClimate with nextRound := 2000 } }
      s.settled = true ∧ s.climate.round = none ∧ s.climate.nextRound = 2000 ∧ s.now = n := by
  decide +kernel

/-- A probe that gave a valid reading at the time-line second 0. -/
def validProbe : ProbeRecord := ⟨.valid, some ⟨1000, 850⟩, 0, true⟩

theorem witness_ProbeExchangesFollowTheTable :
    zone.settled = true ∧ zone.climate.round = none ∧
      (∀ k ∈ [1, 3], ∀ start ∈ [30, 32], ∀ p ∈ [validProbe, { coldProbe with heard := true }], (polling k start p).settled = true ∧
        (polling k start p).climate.round = some ⟨k, 0, []⟩ ∧ (polling k start p).climate.probes[k - 1]? = some p ∧
        (polling k start p).polled k = true ∧ (polling k start p).polled (k + 1) = true) ∧
      probeReading 1 (probeBytes 1 1000 850) = some ⟨1000, 850⟩ ∧ probeReading 1 (probeBytes 2 1000 850) = none ∧
      coldProbe.state = .failed ∧ validProbe.state ≠ .failed ∧ 30 - validProbe.stamp ≤ 30 ∧ 30 < 32 - validProbe.stamp := by
  decide +kernel

theorem witness_ProbeExchangesFollowTheTable_late :
    (atTime 200 (polling 3 30 validProbe)).now ≤ 0 + 200 ∧ 0 + 200 < (atTime 201 (polling 3 30 validProbe)).now ∧
      (atTime 201 (polling 3 30 validProbe)).settled = true ∧ answeringProbe (probeBytes 2 1000 850) = some 2 ∧
      (∀ j, answeringProbe (probeBytes 2 1000 850) = some j → j = 3 ∨ j ∉ (polling 3 30 validProbe).climate.late) ∧
      2 ∈ ({ polling 3 30 validProbe with climate := { (polling 3 30 validProbe).climate with late := [2] } }).climate.late := by
  refine ⟨by decide +kernel, by decide +kernel, by decide +kernel, by decide +kernel, fun j _ => Or.inr ?_, by decide +kernel⟩
  simp [polling, zone, State.reset, State.cold, coldClimate]

theorem witness_RoundEndFormsZoneValue :
    ∀ start ∈ [30, 32], (polling 4 start validProbe).settled = true ∧ (polling 4 start validProbe).climate.round = some ⟨4, 0, []⟩ ∧
      (polling 4 start validProbe).climate.probes[4 - 1]? = some validProbe ∧ (polling 4 start validProbe).polled 4 = true ∧
      (polling 4 start validProbe).polled (4 + 1) = false ∧ (atTime 200 (polling 4 start validProbe)).now ≤ 0 + 200 ∧
      (polling 4 start validProbe).notices.pending.length = 16 := by
  decide +kernel

theorem witness_RoundEndFormsZoneValue_ends :
    validProbe.missed 30 { validProbe with state := .stale } ∧ validProbe.missed 32 { validProbe with state := .failed, reading := none } ∧
      probeReading 4 (probeBytes 4 1000 850) = some ⟨1000, 850⟩ ∧ probeReading 4 (probeBytes 3 1000 850) = none ∧
      (∀ e ∈ [Event.probe 1 .failed ⟨1000, 850⟩], e.source = 13) ∧
      (∀ j, answeringProbe (probeBytes 3 1000 850) = some j → j = 4 ∨ j ∉ (polling 4 30 validProbe).climate.late) := by
  refine ⟨?_, ?_, by decide +kernel, by decide +kernel, by decide +kernel, fun j _ => Or.inr ?_⟩
  · unfold ProbeRecord.missed; decide
  · unfold ProbeRecord.missed; decide
  · simp [polling, zone, State.reset, State.cold, coldClimate]

theorem witness_InputsEvaluateTheSequence :
    zone.settled = true ∧ zone.fire.seq ≠ .confirmed ∧ zone.fire.seq ≠ .preDischarge ∧ zone.dock.session.beforeCommit = false ∧
      (∀ e ∈ zone.transfer.entries, e.isOffered = false) ∧
      (∀ q ∈ [Seq.confirmed, .preDischarge], (inSeq q zone).settled = true ∧ (inSeq q zone).fire.seq = q ∧
        (inSeq q zone).fire.holdOn = false ∧ (inSeq q zone).fire.isolateOn = false) := by
  decide +kernel

/-- An evaluation that leaves the state as it is, and one that confirms the zone. -/
theorem witness_InputsEvaluateTheSequence_kinds :
    zone.evaluatedSeq = zone.fire.seq ∧
      { zone with fire := { zone.fire with callOperated := true, callLatch := true } }.evaluatedSeq = .preDischarge ∧
      zone.notices.pending.length = 16 ∧ zone.records 0 = true ∧ zone.records 2 = true ∧ zone.group 7 ≠ .unused ∧
      ¬(zone.channel 7 = .fault ↔ ChannelState.fault = .fault) ∧ (zone.channel 0 = .fault ↔ ChannelState.alarm = .fault) := by
  decide +kernel

/-- A session in LOADING and an OFFERED transfer, which an operation of the call point ends. -/
def interrupted : State :=
  let s := departing .loading (some (.poll .none))
  entries [⟨vk, 9, 62, .offered none⟩] (holding
    [recordOf qa (.loading lastPlace 1), recordOf vk (.transferring ⟨9, 62⟩ ⟨.conditioning 40, some ⟨4, 20⟩⟩)] s)

theorem witness_InputsEvaluateTheSequence_confirmed :
    interrupted.settled = true ∧ interrupted.canonical = true ∧ seqCode interrupted.fire.seq < 3 ∧
      3 ≤ seqCode ({ interrupted with fire := { interrupted.fire with callOperated := true, callLatch := true } } : State).evaluatedSeq ∧
      interrupted.dock.session.beforeCommit = true ∧ interrupted.dock.pendingAbort = none ∧ interrupted.line.peerOut.length ≤ 16 ∧
      interrupted.notices.pending.length = 16 ∧ interrupted.records 7 = true ∧ interrupted.records 10 = true ∧
      (interrupted.transfer.entries.filter TransferEntry.isOffered).getLast? = some ⟨vk, 9, 62, .offered none⟩ ∧
      interrupted.find qa = some (recordOf qa (.loading lastPlace 1)) ∧
      interrupted.find vk = some (recordOf vk (.transferring ⟨9, 62⟩ ⟨.conditioning 40, some ⟨4, 20⟩⟩)) := by
  decide +kernel

theorem witness_InputsEvaluateTheSequence_held :
    let s := inSeq .preDischarge zone
    s.settled = true ∧ s.fire.seq = .preDischarge ∧ ({ s with fire := { s.fire with isolateOn := true } } : State).fire.isolateOn = true := by
  decide +kernel

theorem witness_TimersRunTheReleaseSequence :
    ∀ q ∈ [Seq.quiet, .preDischarge, .discharge, .soak], (inSeq q zone).settled = true ∧ (inSeq q zone).fire.seq = q ∧
      (inSeq q zone).notices.pending.length = 16 ∧ (inSeq q zone).records 0 = true ∧ (inSeq q zone).records 1 = true := by
  decide +kernel

/-! #### Formats and invariants -/

theorem witness_FormatsReadBackAsSent :
    caseFrameOk (.identity 1 999999 65535 2 [⟨255, 65535, 65535⟩]) = true ∧ caseFrameOk (.scan qa) = true ∧
      beacon.registerCount ≤ 1024 ∧ qa.length = 10 ∧ frameOk 1 (frameOf 1 17 (beaconBytes beacon)) = true ∧
      frameOk 3 (frameOf 3 18 []) = false ∧ (noting 7 idleNotice zone).pendingNotice 7 = some idleNotice ∧
      (noting 7 idleNotice zone).level 7 = some 2 := by
  decide +kernel

/-- 11.1 and 11.4: the reasons and outcomes at each end of their lists, and the messages that the statement lays out. -/
theorem witness_FormatsReadBackAsSent_layouts :
    [RejectReason.notOnManifest, .malformed, .duplicate, .registerFull, .listFull][4]? = some .listFull ∧
      [DeclineReason.malformed, .zoneAlarm, .duplicate, .registerFull, .tableFull, .busy][5]? = some .busy ∧
      (DockFrame.abort .caseRemoved).bytes.take 4 = [5, 0, 1, 13] ∧ DockFrame.wake.bytes.take 3 = [1, 0, 0] ∧
      (PeerBody.take qa 62).bytes = qa ++ [62] ∧ (zone.itemBytes (.beacon beacon)).take 4 = [1, 17, 0, 0] := by
  decide +kernel

/-- 11.1, R65, R1: a code at each end of its list, a check that takes another bit, and the characters next to those of an identifier. -/
theorem witness_FormatsReadBackAsSent_codes :
    ((zone.itemBytes (.answer ⟨0, 1, 1, .done, []⟩))[7]? = some 0 ∧
      (zone.itemBytes (.answer ⟨0, 1, 1, .inputsActive, []⟩))[7]? = some 21) ∧
      (zone.itemBytes (.beacon beacon))[7]? = some 7 ∧ crc ([] ++ [0]) ≠ crc ([] ++ [1]) ∧
      (∀ c ∈ [48, 57, 65, 90], identOk (idOf (List.replicate 10 c)) = true) ∧
      ∀ c ∈ [47, 58, 64, 91], identOk (idOf (List.replicate 10 c)) = false := by
  decide +kernel

/-- An OFFER at each end of its fields. -/
theorem witness_FormatsReadBackAsSent_offer :
    qa.length = 10 ∧ 255 < 256 ∧ (∀ n ∈ [1, 65535], ∀ h, some n = some h → 1 ≤ h ∧ h < 65536) ∧
      (∀ e, some 16777215 = some e → e < 16777216) ∧ ∀ e : Nat, none = some e → e < 16777216 := by
  refine ⟨by decide, by decide, fun n hn h he => ?_, fun e he => ?_, fun e he => nomatch he⟩
  · cases he; simp at hn; omega
  · cases he; decide

theorem witness_StepKeepsOutputsAndBounds :
    zone.climateHeld = true ∧ zone.fireHeld = true ∧ zone.queuesBounded = true ∧ zone.countersHeld = true ∧
      step zone = .next { zone with now := 1 } :=
  ⟨by decide +kernel, by decide +kernel, by decide +kernel, by decide +kernel, rfl⟩

/-- The counters at the upper ends of their ranges. -/
theorem witness_StepKeepsOutputsAndBounds_limits :
    let s := peered 15 (missing .absent 3) { zone with
      dock := { idleDock 255 with session := .loading, faults := 2 }, transfer := ⟨[], 255⟩, line := { zone.line with cycle := 9 } }
    s.countersHeld = true ∧ ({ s with dock := idleDock 256 } : State).countersHeld = false ∧
      ({ s with transfer := ⟨[], 256⟩ } : State).countersHeld = false ∧
      ({ s with line := { s.line with cycle := 10 } } : State).countersHeld = false ∧
      (peered 15 (missing .absent 4) zone).countersHeld = false ∧
      ({ s with dock := { s.dock with faults := 3 } } : State).countersHeld = false := by
  decide +kernel

/-- R58: a scan list that names an identifier twice is outside the invariant. -/
theorem witness_StepKeepsCustody_scans :
    ({ returning with dock := { returning.dock with scans := returning.dock.scans ++ [⟨vk, .unregistered⟩] } } : State).custodyHeld =
      false := by
  decide +kernel

/-- R6, R158: holds at and beyond the ends of their ranges, in each state that has one. -/
theorem witness_StepKeepsCustody_holds :
    (∀ st ∈ [RecState.suspect none (some 1) .exposure, .suspect none (some 480) .exposure, .suspect none none .unregistered,
        .conditioning none 480, .inbound ⟨9, 62⟩ (some 481)], (recordOf qa st).holdFits 480 = true) ∧
      ∀ st ∈ [RecState.suspect none (some 0) .exposure, .suspect none (some 481) .exposure, .conditioning none 481,
        .inbound ⟨9, 62⟩ (some 0)], (recordOf qa st).holdFits 480 = false := by
  decide +kernel

theorem witness_StepKeepsCustody :
    returning.custodyHeld = true ∧ returning.occupancy ≤ 1024 ∧ step returning = .next { returning with now := 501 } ∧
      (departing .sealing none).custodyHeld = true :=
  ⟨by decide +kernel, by decide +kernel, rfl, by decide +kernel⟩

end Sys2Proof.Tests
end

namespace Sys2Proof.Machine

/-! ### The bounds by their blocks -/

/-- A line unit's cycle number and missed-superframe counts are in their ranges (R163, R172). -/
def LineUnit.countsHeld (l : LineUnit) : Prop := l.cycle ≤ 9 ∧ ∀ p ∈ l.peers, p.missed ≤ 3

/-- A line unit's queues are within their depths (R169). -/
def LineUnit.queuesHeld (l : LineUnit) : Prop :=
  l.requests.length ≤ 8 ∧ l.answers.length ≤ 8 ∧ l.peerIn.length ≤ 8 ∧ l.peerOut.length ≤ 16

/-- A pending notice's repeat and in-slot count are in their ranges (R185). -/
def PendingNotice.countsHeld (p : PendingNotice) : Prop := p.repeats ≤ 255 ∧ p.inSlot ≤ 256

/-- Every pending notice's counts are in their ranges (R185). -/
def NoticeUnit.countsHeld (u : NoticeUnit) : Prop := ∀ p, some p ∈ u.pending → p.countsHeld

/-- A dock unit's session number and fault count are in their ranges (R42). -/
def DockUnit.countsHeld (d : DockUnit) : Prop := d.number ≤ 255 ∧ d.faults ≤ 2

theorem queuesBounded_iff (s : State) : s.queuesBounded = true ↔ s.line.queuesHeld := by
  simp only [State.queuesBounded, LineUnit.queuesHeld, Bool.and_eq_true, decide_eq_true_eq, and_assoc]

theorem countersHeld_iff (s : State) : s.countersHeld = true ↔
    s.custody.zoneClock ≤ 4294967295 ∧ s.climate.account ≤ 16777215 ∧ s.conditioning.accumulator ≤ 59 ∧ s.dock.countsHeld ∧
      s.transfer.number ≤ 255 ∧ s.line.countsHeld ∧ s.notices.countsHeld := by
  have hn : (s.notices.pending.all fun n => match n with
      | none => true
      | some p => p.repeats ≤ 255 && p.inSlot ≤ 256) = true ↔ s.notices.countsHeld := by
    rw [List.all_eq_true]
    constructor
    · intro h p hp
      simpa [PendingNotice.countsHeld] using h _ hp
    · rintro h (_ | p) hp
      · rfl
      · simpa [PendingNotice.countsHeld] using h p hp
  have hp : (s.line.peers.all fun p => decide (p.missed ≤ 3)) = true ↔ ∀ p ∈ s.line.peers, p.missed ≤ 3 := by simp
  rw [State.countersHeld, Bool.and_eq_true, Bool.and_eq_true, hp, ← hn]
  simp only [DockUnit.countsHeld, LineUnit.countsHeld, Bool.and_eq_true, decide_eq_true_eq]
  tauto

/-- The outputs are never on together, and OFF while anything forces. -/
theorem climateHeld_iff (s : State) : s.climateHeld = true ↔
    ¬(s.climate.humidify.on = true ∧ s.climate.dehumidify.on = true) ∧
      (s.forcing = true → s.climate.humidify.on = false ∧ s.climate.dehumidify.on = false) := by
  simp only [State.climateHeld]
  cases s.forcing <;> cases s.climate.humidify.on <;> cases s.climate.dehumidify.on <;> simp

/-! ### Keeping the bounds -/

/-- The four implications that O59 states of a step, and that the answer queue is not made longer, which leaves room for the one answer
that follows where a request is served (R177). -/
structure State.Keeps (s t : State) : Prop where
  climate : s.climateHeld = true → t.climateHeld = true
  fire : s.fireHeld = true → t.fireHeld = true
  queues : s.line.queuesHeld → t.line.queuesHeld
  clock : s.custody.zoneClock ≤ 4294967295 → t.custody.zoneClock ≤ 4294967295
  account : s.climate.account ≤ 16777215 → t.climate.account ≤ 16777215
  accumulator : s.conditioning.accumulator ≤ 59 → t.conditioning.accumulator ≤ 59
  dock : s.dock.countsHeld → t.dock.countsHeld
  number : s.transfer.number ≤ 255 → t.transfer.number ≤ 255
  line : s.line.countsHeld → t.line.countsHeld
  notices : s.notices.countsHeld → t.notices.countsHeld
  answers : t.line.answers.length ≤ s.line.answers.length

namespace State.Keeps

theorem refl (s : State) : s.Keeps s := ⟨id, id, id, id, id, id, id, id, id, id, Nat.le_refl _⟩

theorem trans {s t u : State} (h : s.Keeps t) (k : t.Keeps u) : s.Keeps u :=
  ⟨k.climate ∘ h.climate, k.fire ∘ h.fire, k.queues ∘ h.queues, k.clock ∘ h.clock, k.account ∘ h.account,
    k.accumulator ∘ h.accumulator, k.dock ∘ h.dock, k.number ∘ h.number, k.line ∘ h.line, k.notices ∘ h.notices,
    Nat.le_trans k.answers h.answers⟩

/-- As `State.Keeps.trans`, the later change first. -/
theorem after {s t u : State} (k : t.Keeps u) (h : s.Keeps t) : s.Keeps u := h.trans k

/-- A choice between two changes that both keep the bounds keeps them. -/
theorem ite {s a b : State} {p : Prop} [Decidable p] (ha : p → s.Keeps a) (hb : ¬p → s.Keeps b) : s.Keeps (if p then a else b) := by
  split
  · exact ha ‹_›
  · exact hb ‹_›

/-- A fold of changes that each keep the bounds keeps them. -/
theorem foldl {α : Type} {f : State → α → State} (h : ∀ (t : State) (x : α), t.Keeps (f t x)) (l : List α) (s : State) : s.Keeps (l.foldl f s) := by
  induction l generalizing s with
  | nil => exact refl s
  | cons x l ih => exact (h s x).trans (ih _)

/-- A repeated change that keeps the bounds keeps them. -/
theorem repeatStep {f : State → State} (h : ∀ t : State, t.Keeps (f t)) (n : Nat) (s : State) :
    s.Keeps (Machine.repeatStep f n s) := by
  induction n generalizing s with
  | zero => exact refl s
  | succ n ih => exact (h s).trans (ih _)

end State.Keeps

/-! ### Changes that custody does not see -/

/-- Everything that the custody invariant and the occupancy read is the same in both states. -/
structure State.SameCustody (s t : State) : Prop where
  register : t.custody.register = s.custody.register
  manifests : t.custody.manifests = s.custody.manifests
  entries : t.transfer.entries = s.transfer.entries
  session : t.dock.session = s.dock.session
  intent : t.dock.intent = s.dock.intent
  manifest : t.dock.manifest = s.dock.manifest
  scans : t.dock.scans = s.dock.scans
  config : t.request.config = s.request.config
  peerIn : t.line.peerIn = s.line.peerIn
  seq : t.fire.seq = s.fire.seq

/-- A change that keeps the bounds and that custody does not see. -/
structure State.Still (s t : State) : Prop where
  keeps : s.Keeps t
  same : s.SameCustody t

namespace State.Still

theorem refl (s : State) : s.Still s := ⟨.refl s, ⟨rfl, rfl, rfl, rfl, rfl, rfl, rfl, rfl, rfl, rfl⟩⟩

theorem trans {s t u : State} (h : s.Still t) (k : t.Still u) : s.Still u :=
  ⟨h.keeps.trans k.keeps,
    ⟨k.same.register.trans h.same.register, k.same.manifests.trans h.same.manifests, k.same.entries.trans h.same.entries,
      k.same.session.trans h.same.session, k.same.intent.trans h.same.intent, k.same.manifest.trans h.same.manifest,
      k.same.scans.trans h.same.scans, k.same.config.trans h.same.config, k.same.peerIn.trans h.same.peerIn,
      k.same.seq.trans h.same.seq⟩⟩

/-- As `State.Still.trans`, the later change first. -/
theorem after {s t u : State} (k : t.Still u) (h : s.Still t) : s.Still u := h.trans k

theorem ite {s a b : State} {p : Prop} [Decidable p] (ha : p → s.Still a) (hb : ¬p → s.Still b) : s.Still (if p then a else b) := by
  split
  · exact ha ‹_›
  · exact hb ‹_›

theorem foldl {α : Type} {f : State → α → State} (h : ∀ (t : State) (x : α), t.Still (f t x)) (l : List α) (s : State) :
    s.Still (l.foldl f s) := by
  induction l generalizing s with
  | nil => exact refl s
  | cons x l ih => exact (h s x).trans (ih _)

theorem repeatStep {f : State → State} (h : ∀ t : State, t.Still (f t)) (n : Nat) (s : State) :
    s.Still (Machine.repeatStep f n s) := by
  induction n generalizing s with
  | zero => exact refl s
  | succ n ih => exact (h s).trans (ih _)

end State.Still

/-! ### One block changed -/

theorem keeps_withCustody (s : State) (c : CustodyUnit) (h : s.custody.zoneClock ≤ 4294967295 → c.zoneClock ≤ 4294967295) :
    s.Keeps (s.withCustody c) := ⟨id, id, id, h, id, id, id, id, id, id, Nat.le_refl _⟩

theorem keeps_withDock (s : State) (d : DockUnit) (h : s.dock.countsHeld → d.countsHeld) : s.Keeps (s.withDock d) :=
  ⟨id, id, id, id, id, id, h, id, id, id, Nat.le_refl _⟩

theorem keeps_withTransfer (s : State) (u : TransferUnit) (h : s.transfer.number ≤ 255 → u.number ≤ 255) :
    s.Keeps (s.withTransfer u) := ⟨id, id, id, id, id, id, id, h, id, id, Nat.le_refl _⟩

theorem keeps_withLine (s : State) (l : LineUnit) (hq : s.line.queuesHeld → l.queuesHeld) (hc : s.line.countsHeld → l.countsHeld)
    (ha : l.answers.length ≤ s.line.answers.length) : s.Keeps (s.withLine l) := ⟨id, id, hq, id, id, id, id, id, hc, id, ha⟩

theorem still_withPins (s : State) (b : Pins) : s.Still (s.withPins b) :=
  ⟨⟨id, id, id, id, id, id, id, id, id, id, Nat.le_refl _⟩, ⟨rfl, rfl, rfl, rfl, rfl, rfl, rfl, rfl, rfl, rfl⟩⟩

theorem still_withNow (s : State) (n : Nat) : s.Still (s.withNow n) :=
  ⟨⟨id, id, id, id, id, id, id, id, id, id, Nat.le_refl _⟩, ⟨rfl, rfl, rfl, rfl, rfl, rfl, rfl, rfl, rfl, rfl⟩⟩

theorem still_withFree (s : State) (n : Nat) : s.Still (s.withFree n) :=
  ⟨⟨id, id, id, id, id, id, id, id, id, id, Nat.le_refl _⟩, ⟨rfl, rfl, rfl, rfl, rfl, rfl, rfl, rfl, rfl, rfl⟩⟩

theorem still_withPending (s : State) (q : List Instr) : s.Still (s.withPending q) :=
  ⟨⟨id, id, id, id, id, id, id, id, id, id, Nat.le_refl _⟩, ⟨rfl, rfl, rfl, rfl, rfl, rfl, rfl, rfl, rfl, rfl⟩⟩

theorem still_withConditioning (s : State) (b : ConditioningUnit) (h : s.conditioning.accumulator ≤ 59 → b.accumulator ≤ 59) :
    s.Still (s.withConditioning b) :=
  ⟨⟨id, id, id, id, id, h, id, id, id, id, Nat.le_refl _⟩, ⟨rfl, rfl, rfl, rfl, rfl, rfl, rfl, rfl, rfl, rfl⟩⟩

theorem still_withNotices (s : State) (b : NoticeUnit) (h : s.notices.countsHeld → b.countsHeld) : s.Still (s.withNotices b) :=
  ⟨⟨id, id, id, id, id, id, id, id, id, h, Nat.le_refl _⟩, ⟨rfl, rfl, rfl, rfl, rfl, rfl, rfl, rfl, rfl, rfl⟩⟩

/-- A RESET that waits, or waits no more: the configuration stands. -/
theorem still_setResetWait (s : State) (w : Option Nat) : s.Still (s.withRequest { s.request with resetWait := w }) :=
  ⟨⟨id, id, id, id, id, id, id, id, id, id, Nat.le_refl _⟩, ⟨rfl, rfl, rfl, rfl, rfl, rfl, rfl, rfl, rfl, rfl⟩⟩

/-- A change of the climate unit that keeps its two bounds. -/
theorem still_withClimate (s : State) (c : ClimateUnit) (hc : s.climateHeld = true → (s.withClimate c).climateHeld = true)
    (ha : s.climate.account ≤ 16777215 → c.account ≤ 16777215) : s.Still (s.withClimate c) :=
  ⟨⟨hc, id, id, id, ha, id, id, id, id, id, Nat.le_refl _⟩, ⟨rfl, rfl, rfl, rfl, rfl, rfl, rfl, rfl, rfl, rfl⟩⟩

/-- A change of the climate unit that keeps the outputs and the zone value. -/
theorem climateHeld_withClimate {s : State} {c : ClimateUnit} (hh : c.humidify = s.climate.humidify)
    (hd : c.dehumidify = s.climate.dehumidify) (hz : c.zone = s.climate.zone) (h : s.climateHeld = true) :
    (s.withClimate c).climateHeld = true := by
  simpa [State.climateHeld, State.forcing, State.configured, hh, hd, hz] using h

/-- A change of the fire unit that keeps the sequence state, the flag, the general-alarm record, the timers and the outputs. -/
theorem still_withFire (s : State) (f : FireUnit) (hq : f.seq = s.fire.seq) (hn : f.neighbourAlert = s.fire.neighbourAlert)
    (hf : s.fireHeld = true → (s.withFire f).fireHeld = true) : s.Still (s.withFire f) :=
  ⟨⟨fun h => by simpa [State.climateHeld, State.forcing, State.configured, hq, hn] using h,
      hf, id, id, id, id, id, id, id, id, Nat.le_refl _⟩,
    ⟨rfl, rfl, rfl, rfl, rfl, rfl, rfl, rfl, rfl, hq⟩⟩

/-- A change of the dock unit outside the session's state, intent, manifest and scan list. -/
theorem still_withDock (s : State) (d : DockUnit) (h1 : d.session = s.dock.session) (h2 : d.intent = s.dock.intent)
    (h3 : d.manifest = s.dock.manifest) (h4 : d.scans = s.dock.scans) (h : s.dock.countsHeld → d.countsHeld) : s.Still (s.withDock d) :=
  ⟨keeps_withDock s d h, ⟨rfl, rfl, rfl, h1, h2, h3, h4, rfl, rfl, rfl⟩⟩

/-- A change of the line unit outside the peer input queue. -/
theorem still_withLine (s : State) (l : LineUnit) (hp : l.peerIn = s.line.peerIn) (hq : s.line.queuesHeld → l.queuesHeld)
    (hc : s.line.countsHeld → l.countsHeld) (ha : l.answers.length ≤ s.line.answers.length) : s.Still (s.withLine l) :=
  ⟨keeps_withLine s l hq hc ha, ⟨rfl, rfl, rfl, rfl, rfl, rfl, rfl, rfl, hp, rfl⟩⟩

/-! ### Shared operations -/

theorem keeps_setRegister (s : State) (l : List Record) : s.Keeps (s.setRegister l) := keeps_withCustody s _ id
theorem keeps_setManifests (s : State) (l : List (Option Manifest)) : s.Keeps (s.setManifests l) := keeps_withCustody s _ id
theorem keeps_setEntries (s : State) (l : List TransferEntry) : s.Keeps (s.setEntries l) := keeps_withTransfer s _ id
theorem keeps_putRecord (s : State) (r : Record) : s.Keeps (s.putRecord r) := keeps_setRegister s _
theorem keeps_eraseRecord (s : State) (id : Ident) : s.Keeps (s.eraseRecord id) := keeps_setRegister s _
theorem keeps_setManifest (s : State) (n : Nat) (m : Option Manifest) : s.Keeps (s.setManifest n m) := keeps_setManifests s _
theorem keeps_putEntry (s : State) (e : TransferEntry) : s.Keeps (s.putEntry e) := keeps_setEntries s _
theorem keeps_eraseEntry (s : State) (id : Ident) : s.Keeps (s.eraseEntry id) := keeps_setEntries s _

/-- A transfer message queued where there is room. -/
theorem still_queuePeer (s : State) (m : PeerOut) (h : s.peerRoom = true) : s.Still (s.queuePeer m) := by
  have h16 : s.line.peerOut.length < 16 := of_decide_eq_true h
  refine still_withLine s _ rfl (fun ⟨h1, h2, h3, _⟩ => ⟨h1, h2, h3, ?_⟩) id (Nat.le_refl _)
  simp only [List.length_append, List.length_singleton]
  omega

theorem countsHeld_set {u : NoticeUnit} (h : u.countsHeld) (k : Nat) {n : Option PendingNotice}
    (hn : ∀ p, n = some p → p.countsHeld) : NoticeUnit.countsHeld ⟨u.pending.set k n⟩ := by
  intro p hp
  rcases List.mem_or_eq_of_mem_set hp with hp | hp
  · exact h p hp
  · exact hn p hp.symm

theorem countsHeld_pendingNotice {s : State} (h : s.notices.countsHeld) {k : Nat} {p : PendingNotice}
    (hp : s.pendingNotice k = some p) : p.countsHeld :=
  h p (List.mem_of_getElem? (Option.join_eq_some_iff.1 hp))

/-- A pending notice replaced by one whose counts are in their ranges wherever the unit's are. -/
theorem still_setNotice (s : State) (k : Nat) (n : Option PendingNotice) (h : s.notices.countsHeld → ∀ p, n = some p → p.countsHeld) :
    s.Still (s.setNotice k n) := still_withNotices s _ fun hs => countsHeld_set hs k (h hs)

theorem recordEvent_countsHeld (clock : Nat) (e : Event) (n : Option PendingNotice) (h : ∀ p, n = some p → p.countsHeld) :
    (recordEvent clock e n).countsHeld := by
  cases n with
  | none => exact ⟨Nat.zero_le _, Nat.zero_le _⟩
  | some p =>
    have hp := h p rfl
    simp only [recordEvent, PendingNotice.countsHeld] at *
    split <;> omega

theorem still_emit (s : State) (e : Event) : s.Still (s.emit e) := by
  refine .ite (fun _ => still_setNotice s _ _ fun hs p hp => ?_) fun _ => .refl s
  cases hp
  exact recordEvent_countsHeld _ _ _ fun p hp => countsHeld_pendingNotice hs hp

theorem still_emitAll (s : State) (l : List Event) : s.Still (s.emitAll l) := .foldl still_emit l s

theorem still_choose {α : Type} (s : State) (l : List α) : s.Still (s.choose l).2 := by
  obtain ⟨n, hn⟩ := choose_snd s l
  rw [hn]
  exact still_withFree s n

/-- Forcing changes nothing that a forcing condition depends on. -/
theorem forceOutputs_forcing (s : State) : s.forceOutputs.forcing = s.forcing := by
  have hz : s.forceOutputs.climate.zone = s.climate.zone := by rw [forceOutputs_climate]; rfl
  simp only [State.forcing, State.configured, State.forceOutputs_request, State.forceOutputs_fire, hz]

/-- An output is ON after forcing where it was ON and nothing forces. -/
theorem forceOutputs_on (s : State) :
    s.forceOutputs.climate.humidify.on = (s.climate.humidify.on && !s.forcing) ∧
      s.forceOutputs.climate.dehumidify.on = (s.climate.dehumidify.on && !s.forcing) := by
  rw [forceOutputs_climate, State.climateForcedIn]
  cases s.forcing <;> cases hh : s.climate.humidify.on <;> cases hd : s.climate.dehumidify.on <;> simp [hh, hd]

/-- Outputs forced after a change of anything they depend on stand as a forcing condition asks. -/
theorem climateHeld_forceOutputs (s : State) (h : ¬(s.climate.humidify.on = true ∧ s.climate.dehumidify.on = true)) :
    s.forceOutputs.climateHeld = true := by
  obtain ⟨hh, hd⟩ := forceOutputs_on s
  rw [climateHeld_iff, forceOutputs_forcing, hh, hd]
  cases s.forcing <;> simp_all

/-- A change of the climate unit that keeps the outputs, which are then forced. -/
theorem still_withClimate_forceOutputs (s : State) (c : ClimateUnit) (hh : c.humidify = s.climate.humidify)
    (hd : c.dehumidify = s.climate.dehumidify) (ha : s.climate.account ≤ 16777215 → c.account ≤ 16777215) :
    s.Still (s.withClimate c).forceOutputs := by
  have hw := forceOutputs_withClimate (s.withClimate c)
  rw [hw]
  refine still_withClimate s _ (fun h => ?_) ?_
  · have hon := ((climateHeld_iff s).1 h).1
    rw [← hh, ← hd] at hon
    exact hw ▸ climateHeld_forceOutputs _ hon
  · rw [forceOutputs_climate]
    exact ha

end Sys2Proof.Machine

namespace Sys2Proof.Machine

/-! ### The dock's operations -/

theorem still_sendFrame (s : State) (f : DockFrame) : s.Still (s.sendFrame f) := still_withDock s _ rfl rfl rfl rfl id
theorem still_sendAbort (s : State) (o : SessionOutcome) : s.Still (s.sendAbort o) := still_withDock s _ rfl rfl rfl rfl id

theorem still_sendNext (s : State) : s.Still s.sendNext := by
  unfold State.sendNext
  split
  · exact still_sendFrame s _
  · exact .refl s

theorem still_sendAtOnce (s : State) : s.Still s.sendAtOnce := by
  unfold State.sendAtOnce
  split
  · exact still_sendNext s
  · exact still_sendNext s
  · exact .refl s

theorem still_endExchange (s : State) : s.Still s.endExchange := by
  have he : s.Still (s.withDock { s.dock with outstanding := none }) := still_withDock s _ rfl rfl rfl rfl id
  unfold State.endExchange
  split
  · exact he.trans (still_sendAbort _ _)
  · exact he

theorem still_abort (s : State) (o : SessionOutcome) : s.Still (s.abort o) := by
  unfold State.abort
  split
  · exact still_sendAbort s o
  · exact still_withDock s _ rfl rfl rfl rfl id

theorem keeps_reopenManifest (s : State) : s.Keeps s.reopenManifest := by
  unfold State.reopenManifest
  split
  · exact .refl s
  · split
    · exact .refl s
    · exact keeps_setManifest s _ _

theorem keeps_revertSession (s : State) : s.Keeps s.revertSession :=
  ((keeps_reopenManifest s).trans (keeps_setRegister _ _)).trans (keeps_withDock _ _ (by simp [DockUnit.countsHeld]))

/-- The context cleared to IDLE keeps the session number and has no faults. -/
theorem countsHeld_cleared {d : DockUnit} (h : d.countsHeld) (i : Indicator) (t : Option Nat) : (d.cleared i t).countsHeld :=
  ⟨h.1, Nat.zero_le _⟩

theorem keeps_endUncommitted (s : State) (o : SessionOutcome) : s.Keeps (s.endUncommitted o) := by
  have hi := ((keeps_revertSession s).trans (still_emit _ (.sessionEnded
    { s.report o s.dock.scans.length with reverted := some s.dock.scans.length })).keeps).trans
      (keeps_withDock _ _ fun h => countsHeld_cleared h .refused (some s.now))
  unfold State.endUncommitted
  split
  · exact hi.trans (keeps_withDock _ _ id)
  · exact hi.trans (still_abort _ _).keeps

theorem keeps_endCommitted (s : State) (o : SessionOutcome) : s.Keeps (s.endCommitted o) :=
  (still_emit s (.sessionEnded (s.commitReport o))).keeps.trans (keeps_withDock _ _ fun h => ⟨h.1, Nat.zero_le _⟩)

/-- A fault counted where it is not yet the third. -/
theorem keeps_countFault (s : State) (h : ¬faultLimit ≤ s.dock.faults + 1) :
    s.Keeps (s.withDock { s.dock with faults := s.dock.faults + 1 }) :=
  keeps_withDock s _ fun hs => ⟨hs.1, Nat.le_of_lt_succ (Nat.lt_of_not_le h)⟩

theorem keeps_frameFault (s : State) : s.Keeps s.frameFault := by
  unfold State.frameFault
  split
  · exact .refl s
  · exact .refl s
  · exact .ite (fun _ => keeps_endCommitted s _) (keeps_countFault s)
  all_goals exact .ite (fun _ => keeps_endUncommitted s _) (keeps_countFault s)

/-! ### The transfers' operations -/

theorem keeps_restoreRecord (s : State) (id : Ident) : s.Keeps (s.restoreRecord id) := by
  unfold State.restoreRecord
  split
  · exact .refl s
  · split
    · exact keeps_putRecord s _
    · exact .refl s

theorem keeps_keepCartridge (s : State) (e : TransferEntry) (o : TransferOutcome) (r : Option Byte) :
    s.Keeps (s.keepCartridge e o r) :=
  ((keeps_restoreRecord s _).trans (keeps_eraseEntry _ _)).trans (still_emit _ _).keeps

theorem keeps_dropCartridge (s : State) (e : TransferEntry) (o : TransferOutcome) : s.Keeps (s.dropCartridge e o) :=
  ((keeps_eraseRecord s _).trans (keeps_eraseEntry _ _)).trans (still_emit _ _).keeps

theorem still_queueWithdraw (s : State) (e : TransferEntry) : s.Still (s.queueWithdraw e) :=
  .ite (still_queuePeer s _) fun _ => .refl s

theorem keeps_withdrawOffers (s : State) : s.Keeps s.withdrawOffers :=
  ((State.Keeps.foldl (fun t (e : TransferEntry) => (keeps_restoreRecord t e.id).trans (keeps_eraseEntry _ _)) _ s).trans
    (State.Still.foldl still_queueWithdraw _ _).keeps).trans (still_emitAll _ _).keeps

/-! ### The fire unit's operations -/

theorem fireHeld_enterSeq (s : State) (q : Seq) (c : FireCause) : (s.enterSeq q c).fireHeld = true := by
  rw [State.fireHeld, enterSeq_fire]
  cases q <;> simp

theorem keeps_enterSeq (s : State) (q : Seq) (c : FireCause) : s.Keeps (s.enterSeq q c) := by
  have hn : s.notices.countsHeld → (s.enterSeq q c).notices.countsHeld := by
    rw [State.enterSeq, State.forceOutputs_notices]
    exact (still_emit (s.withFire (s.fire.inSeq q s.cfg s.now)).refreshFireOutputs _).keeps.notices
  have hc : s.climateHeld = true → (s.enterSeq q c).climateHeld = true := fun h =>
    climateHeld_forceOutputs _ (by simpa using ((climateHeld_iff s).1 h).1)
  have ha : (s.enterSeq q c).climate.account = s.climate.account := by rw [enterSeq_climate]; rfl
  exact ⟨hc, fun _ => fireHeld_enterSeq s q c, by simp, by simp, by rw [ha]; exact id, by simp, by simp, by simp, by simp, hn, by simp⟩

theorem keeps_fireEndsSession (s : State) : s.Keeps s.fireEndsSession :=
  .ite (fun _ => keeps_endUncommitted s _) fun _ => .refl s

theorem keeps_enterConfirmation (s : State) : s.Keeps s.enterConfirmation :=
  ((keeps_enterSeq s _ _).trans (keeps_fireEndsSession _)).trans (keeps_withdrawOffers _)

theorem keeps_evaluate (s : State) : s.Keeps s.evaluate := by
  rcases evaluate_cases s with ⟨_, h⟩ | ⟨c, _, _, h⟩ | ⟨_, _, h⟩ <;> rw [h]
  · exact .refl s
  · exact keeps_enterSeq s _ c
  · exact keeps_enterConfirmation s

theorem keeps_judgeSwitches (s : State) : s.Keeps s.judgeSwitches := by
  unfold State.judgeSwitches
  split
  · exact .ite (fun _ => .refl s) fun _ => keeps_enterSeq s _ _
  · exact .ite (fun _ => keeps_enterSeq s _ _) fun _ => .refl s
  · exact keeps_evaluate s

/-- Of the fire unit's bounds those that the flag and the general-alarm record have no part in. -/
theorem fireTimersHeld {s : State} (h : s.fireHeld = true) :
    s.fire.release = decide (s.fire.seq = .discharge) ∧ s.fire.countdown.isSome = decide (s.fire.seq = .preDischarge) ∧
      s.fire.pulse.isSome = decide (s.fire.seq = .discharge) ∧ s.fire.soak.isSome = decide (s.fire.seq = .soak) := by
  simp only [State.fireHeld, Bool.and_eq_true, beq_iff_eq] at h
  exact ⟨h.1.1.1.1.1, h.1.1.1.1.2, h.1.1.1.2, h.1.1.2⟩

theorem still_judgeNeighbours (s : State) : s.Still s.judgeNeighbours := by
  obtain ⟨hframe, _, _, hseq, _⟩ := judgeNeighbours_spec s
  by_cases hflag : (!s.alertHolders.isEmpty) = s.fire.neighbourAlert
  · rw [show s.judgeNeighbours = s from if_pos hflag]
    exact .refl s
  · obtain ⟨set, hset⟩ : ∃ set, set = (s.withFire { s.fire with neighbourAlert := !s.alertHolders.isEmpty }).refreshFireOutputs := ⟨_, rfl⟩
    have he : s.judgeNeighbours =
        (set.emit (.neighbourAlarm (!s.alertHolders.isEmpty) s.alertHolders s.custody.zoneClock)).forceOutputs := by
      rw [hset]
      exact if_neg hflag
    have hclimate : s.climateHeld = true → s.judgeNeighbours.climateHeld = true := by
      intro h
      rw [he]
      refine climateHeld_forceOutputs _ ?_
      rw [State.emit_climate, hset]
      exact ((climateHeld_iff s).1 h).1
    have hfire : s.fireHeld = true → s.judgeNeighbours.fireHeld = true := by
      intro h
      rw [State.fireHeld, he, State.forceOutputs_fire, State.emit_fire, hset]
      obtain ⟨hrelease, hcountdown, hpulse, hsoak⟩ := fireTimersHeld h
      simp [State.refreshFireOutputs, hrelease, hcountdown, hpulse, hsoak]
    have hnotices : s.notices.countsHeld → s.judgeNeighbours.notices.countsHeld := by
      rw [he, State.forceOutputs_notices, show s.notices = set.notices by rw [hset]; rfl]
      exact (still_emit set _).keeps.notices
    have haccount : s.judgeNeighbours.climate.account = s.climate.account := by rw [hframe]; rfl
    exact ⟨⟨hclimate, hfire, by simp, by simp, by rw [haccount]; exact id, by simp, by simp, by simp, by simp, hnotices, by simp⟩,
      ⟨by simp, by simp, by simp, by simp, by simp, by simp, by simp, by simp, by simp, hseq⟩⟩

/-- The fire unit with its inputs as the pins give them at a survey (R139). -/
def FireUnit.surveyed (f : FireUnit) (p : Pins) : FireUnit :=
  { f with channels := p.channels, callOperated := p.callOperated, callLatch := f.callLatch || p.callOperated,
           holdOn := p.holdOn, isolateOn := p.isolateOn, doorOpen := p.doorOpen, agentReady := p.agentReady }

/-- The survey: the inputs recorded, the faults reported, one evaluation (R139). -/
theorem inputSurvey_eq (s : State) (recorded : State) (h : recorded = s.withFire (s.fire.surveyed s.pins)) :
    s.inputSurvey = (recorded.emitAll (recorded.faultChannels.map recorded.faultEvent)).evaluate := by
  rw [h]
  rfl

theorem keeps_inputSurvey (s : State) : s.Keeps s.inputSurvey := by
  rw [inputSurvey_eq s _ rfl]
  exact ((still_withFire s (s.fire.surveyed s.pins) rfl rfl id).keeps.trans (still_emitAll _ _).keeps).trans (keeps_evaluate _)

/-! ### Rollover and follow-on steps -/

theorem keeps_rollover (s : State) : s.Keeps s.rollover :=
  ((still_withConditioning s ⟨0⟩ fun _ => Nat.zero_le _).keeps.trans (keeps_setRegister _ _)).trans (still_emitAll _ _).keeps

theorem keeps_runningSecond (s : State) : s.Keeps s.runningSecond :=
  .ite (fun h => (still_withConditioning s _ fun _ => Nat.le_of_lt_succ h).keeps) fun _ => keeps_rollover s

theorem keeps_completeStep (s : State) : s.Keeps s.completeStep := by
  unfold State.completeStep
  split
  · exact .refl s
  · exact (keeps_putRecord s _).trans (still_emit _ _).keeps

theorem keeps_freeManifest (s : State) (n : Nat) : s.Keeps (s.freeManifest n) :=
  (keeps_setRegister s _).trans (keeps_setManifest _ _ _)

theorem keeps_endManifest (s : State) (n : Nat) (m : Manifest) (c : ManifestEnd) : s.Keeps (s.endManifest n m c) :=
  (keeps_freeManifest s n).trans (still_emit _ _).keeps

theorem keeps_expireManifestStep (s : State) : s.Keeps s.expireManifestStep := by
  unfold State.expireManifestStep
  split
  · exact .refl s
  · split
    · exact .refl s
    · exact keeps_endManifest s _ _ _

theorem keeps_expireTransit (s : State) (e : TransferEntry) : s.Keeps (s.expireTransit e) := by
  unfold State.expireTransit
  split
  · exact (keeps_eraseEntry s _).trans (still_emit _ _).keeps
  · exact ((keeps_putRecord s _).trans (keeps_eraseEntry _ _)).trans (still_emitAll _ _).keeps

theorem keeps_expireOneTransit (s : State) : s.Keeps s.expireOneTransit := by
  have hc := (still_choose s (s.transfer.entries.filter TransferEntry.overdue)).keeps
  unfold State.expireOneTransit
  split <;> rename_i h <;> rw [h] at hc
  · exact hc.trans (keeps_expireTransit _ _)
  · exact hc

theorem keeps_abandonOne (s : State) : s.Keeps s.abandonOne := by
  have hc := (still_choose s (s.transfer.entries.filter TransferEntry.abandoned)).keeps
  unfold State.abandonOne
  split <;> rename_i h <;> rw [h] at hc
  · exact hc.trans (keeps_dropCartridge _ _ _)
  · exact hc

/-- The superframe end, entry by entry. -/
theorem mem_superframeFrom {own base : Nat} {l : List PeerEntry} {p : PeerEntry} (h : p ∈ superframeFrom own base l) :
    ∃ q ∈ l, ∃ isOwn, p = q.superframe isOwn := by
  induction l generalizing base with
  | nil => cases h
  | cons q l ih =>
    rcases List.mem_cons.1 h with rfl | h
    · exact ⟨q, by simp, _, rfl⟩
    · obtain ⟨q', hq, hp⟩ := ih h
      exact ⟨q', by simp [hq], hp⟩

theorem missed_superframe {p : PeerEntry} (isOwn : Bool) (h : p.missed ≤ 3) : (p.superframe isOwn).missed ≤ 3 := by
  simp only [PeerEntry.superframe, missedLimit]
  split <;> omega

theorem still_superframeStep (s : State) : s.Still s.superframeStep := by
  refine .ite (fun _ => still_withLine s _ rfl id (fun h => ⟨h.1, fun p hp => ?_⟩) (Nat.le_refl _)) fun _ => .refl s
  obtain ⟨q, hq, isOwn, rfl⟩ := mem_superframeFrom hp
  exact missed_superframe isOwn (h.2 q hq)

theorem still_setPeer (s : State) (a : Nat) (p : PeerEntry) (h : s.line.countsHeld → p.missed ≤ 3) : s.Still (s.setPeer a p) := by
  refine still_withLine s _ rfl id (fun hs => ⟨hs.1, fun q hq => ?_⟩) (Nat.le_refl _)
  rcases List.mem_or_eq_of_mem_set hq with hq | rfl
  · exact hs.2 q hq
  · exact h hs

theorem missed_peer {s : State} {a : Nat} {p : PeerEntry} (hp : s.peer a = some p) (h : s.line.countsHeld) : p.missed ≤ 3 :=
  h.2 p (List.mem_of_getElem? hp)

theorem still_makeAbsent (s : State) (a : Nat) : s.Still (s.makeAbsent a) := by
  unfold State.makeAbsent
  split
  · exact .refl s
  · rename_i p hp
    refine .ite (fun _ => ?_) fun _ => .refl s
    have hset : s.Still (s.setPeer a { p with presence := .absent }) := still_setPeer s a _ fun h => missed_peer (p := p) hp h
    exact (hset.trans (.ite (fun _ => still_emit _ _) fun _ => .refl _)).trans (still_judgeNeighbours _)

theorem still_absentOne (s : State) : s.Still s.absentOne := by
  have hc := still_choose s s.gonePeers
  unfold State.absentOne
  split <;> rename_i h <;> rw [h] at hc
  · exact hc.trans (still_makeAbsent _ _)
  · exact hc

theorem keeps_settle (s : State) : s.Keeps s.settle :=
  ((((State.Keeps.repeatStep keeps_expireManifestStep _ s).trans (.repeatStep keeps_expireOneTransit _ _)).trans
    (.repeatStep keeps_abandonOne _ _)).trans (still_superframeStep _).keeps).trans (State.Still.repeatStep still_absentOne _ _).keeps

end Sys2Proof.Machine

namespace Sys2Proof.Machine

/-! ### The climate unit's operations -/

/-- A change of the climate unit outside the outputs, the zone value and the account. -/
theorem still_withClimate_same (s : State) (c : ClimateUnit) (hh : c.humidify = s.climate.humidify)
    (hd : c.dehumidify = s.climate.dehumidify) (hz : c.zone = s.climate.zone) (ha : c.account = s.climate.account) :
    s.Still (s.withClimate c) :=
  still_withClimate s c (climateHeld_withClimate hh hd hz) fun h => ha ▸ h

theorem still_setProbe (s : State) (k : Nat) (p : ProbeRecord) : s.Still (s.setProbe k p) :=
  still_withClimate_same s _ rfl rfl rfl rfl

theorem still_emitSpread (s : State) : s.Still s.emitSpread := by
  have hhigh := still_choose s (probesAt s.usable (highestRh s.usable))
  unfold State.emitSpread
  split <;> rename_i hchosen <;> rw [hchosen] at hhigh
  · exact hhigh
  · rename_i t
    have hlow := still_choose t (probesAt s.usable (lowestRh s.usable))
    split <;> rename_i hchosen' <;> rw [hchosen'] at hlow
    · exact hhigh.trans hlow
    · exact (hhigh.trans hlow).trans (still_emit _ _)

theorem still_judgeSpread (s : State) : s.Still s.judgeSpread := by
  have hj : s.Still (s.withClimate { s.climate with spreadHigh := s.spreadJudged }) := still_withClimate_same s _ rfl rfl rfl rfl
  exact .ite (fun _ => hj.trans (still_emitSpread _)) fun _ => hj

theorem still_formZone (s : State) : s.Still s.formZone := still_withClimate_forceOutputs s _ rfl rfl id

theorem still_judgeBand (s : State) : s.Still s.judgeBand :=
  .ite (fun _ => .refl s) fun _ => (still_emit _ _).after (still_withClimate_same s _ rfl rfl rfl rfl)

theorem still_formation (s : State) : s.Still s.formation :=
  ((still_judgeSpread s).trans (still_formZone _)).trans (still_judgeBand _)

/-- An output is ON after its decision where it was ON and is not turned off, or is turned on after its minimum-off time. -/
theorem decide_on (now : Nat) (turnsOn turnsOff : Bool) (o : ClimateOutput) :
    (o.decide now turnsOn turnsOff).on = if o.on then !turnsOff else turnsOn && minimumOffPassed now o := by
  unfold ClimateOutput.decide
  split
  · cases turnsOff <;> simp_all
  · split <;> simp_all

/-- Below the set point the humidifier alone can be ON, above it the dehumidifier alone (R105). -/
theorem still_decideOutputs (s : State) : s.Still s.decideOutputs := by
  unfold State.decideOutputs
  split
  · rename_i z hforcing hz
    refine still_withClimate s _ (fun _ => ?_) id
    rw [climateHeld_iff]
    constructor
    · simp only [State.withClimate_climate, decide_on]
      grind
    · intro h
      have hsame : s.forcing = true := h
      rw [hforcing] at hsame
      cases hsame
  · exact .refl s

theorem still_ask (s : State) (k : Nat) (l : List Event) : s.Still (s.ask k l) := still_withClimate_same s _ rfl rfl rfl rfl

theorem still_startRound (s : State) : s.Still s.startRound := by
  unfold State.startRound
  split
  · exact .refl s
  · refine .ite (fun _ => ?_) fun _ => .refl s
    exact (still_ask _ _ _).after (still_withClimate_same s _ rfl rfl rfl rfl)

theorem still_endRound (s : State) (l : List Event) : s.Still (s.endRound l) :=
  (((still_withClimate_same s { s.climate with round := none } rfl rfl rfl rfl).trans (still_emitAll _ _)).trans
    (still_formation _)).trans (still_decideOutputs _)

theorem still_nextProbe (s : State) (k : Nat) (l : List Event) : s.Still (s.nextProbe k l) :=
  .ite (fun _ => still_ask s _ _) fun _ => still_endRound s _

theorem still_endProbe (s : State) (round : PollRound) (answer : Option Reading) : s.Still (s.endProbe round answer) := by
  unfold State.endProbe
  split
  · exact (still_setProbe s _ _).trans (still_nextProbe _ _ _)
  · exact still_nextProbe s _ _

theorem still_hearProbe (s : State) (bytes : List Byte) : s.Still (s.hearProbe bytes) := by
  unfold State.hearProbe
  split
  · exact .refl s
  · exact .ite (fun _ => .refl s) fun _ => still_endProbe s _ _

theorem still_probeTimesOut (s : State) : s.Still s.probeTimesOut := by
  unfold State.probeTimesOut
  split
  · exact .refl s
  · exact (still_endProbe _ _ _).after (still_withClimate_same s _ rfl rfl rfl rfl)

/-! ### The blocks at an accepted configuration -/

theorem still_dropProbe (s : State) (k : Nat) : s.Still (s.dropProbe k) := by
  unfold State.dropProbe
  split
  · exact (still_setProbe s _ _).trans (still_emitAll _ _)
  · exact .refl s

theorem still_dropHeld (s : State) : s.Still s.dropHeld := still_withClimate_same s _ rfl rfl rfl rfl

theorem still_configureClimate (s : State) : s.Still s.configureClimate :=
  ((State.Still.foldl still_dropProbe _ s).trans (still_dropHeld _)).trans (still_formation _)

theorem missed_flagNeighbours {l : List Nat} {base : Nat} {peers : List PeerEntry} (h : ∀ p ∈ peers, p.missed ≤ 3) :
    ∀ p ∈ flagNeighbours l base peers, p.missed ≤ 3 := by
  induction peers generalizing base with
  | nil => simp [flagNeighbours]
  | cons q peers ih =>
    intro p hp
    rcases List.mem_cons.1 hp with rfl | hp
    · exact h q (by simp)
    · exact ih (fun p hp => h p (by simp [hp])) p hp

theorem still_configureLine (s : State) : s.Still s.configureLine :=
  still_withLine s _ rfl id (fun h => ⟨h.1, missed_flagNeighbours h.2⟩) (Nat.le_refl _)

theorem mem_dropOff {levels : List (Option Nat)} {pending : List (Option PendingNotice)} {p : PendingNotice}
    (h : some p ∈ dropOff levels pending) : some p ∈ pending := by
  induction levels generalizing pending with
  | nil => simp [dropOff] at h
  | cons level levels ih =>
    cases pending with
    | nil => simp [dropOff] at h
    | cons n pending =>
      simp only [dropOff, List.zipWith_cons_cons, List.mem_cons] at h
      rcases h with h | h
      · refine List.mem_cons.2 (.inl ?_)
        split at h
        · exact h
        · cases n with
          | none => exact h
          | some q =>
            simp only [keepIfSending] at h
            split at h
            · exact h
            · cases h
      · exact List.mem_cons.2 (.inr (ih h))

theorem still_configureNotices (s : State) : s.Still s.configureNotices :=
  still_withNotices s _ fun h p hp => h p (mem_dropOff hp)

theorem keeps_configureFire (s : State) (before : List Group) : s.Keeps (s.configureFire before) :=
  ((still_judgeNeighbours s).keeps.trans (still_emitAll _ _).keeps).trans (keeps_evaluate _)

/-- A configuration set on a station that has none: nothing was ON, so nothing needs forcing. -/
theorem keeps_setConfig (s : State) (config : ConfigRecord) (sender : Nat) (h : s.configured = false) :
    s.Keeps (s.withRequest { s.request with config := some config, gateway := some sender }) := by
  refine ⟨fun hc => ?_, id, id, id, id, id, id, id, id, id, Nat.le_refl _⟩
  have hforcing : s.forcing = true := by simp [State.forcing, h]
  obtain ⟨hh, hd⟩ := ((climateHeld_iff s).1 hc).2 hforcing
  rw [climateHeld_iff]
  simp [hh, hd]

theorem keeps_acceptConfigure (s : State) (config : ConfigRecord) (sender : Nat) (h : s.configured = false) :
    s.Keeps (s.acceptConfigure config sender) := by
  unfold State.acceptConfigure
  exact (keeps_configureFire _ _).after ((still_configureClimate _).keeps.after ((still_configureNotices _).keeps.after
    ((still_configureLine _).keeps.after (keeps_setConfig s config sender h))))

/-! ### Resets -/

theorem keeps_warmCleared (s : State) : s.Keeps s.warmCleared := by
  have hline : s.warmCleared.line.countsHeld := by
    refine ⟨Nat.zero_le _, fun p hp => ?_⟩
    obtain ⟨b, _, rfl⟩ := List.mem_map.1 hp
    exact Nat.zero_le _
  have hnotices : s.warmCleared.notices.countsHeld := fun p hp => by
    simp [State.warmCleared, emptyNotices] at hp
  exact ⟨fun _ => by rw [climateHeld_iff]; exact ⟨by simp [State.warmCleared, ClimateUnit.reset], fun _ => ⟨rfl, rfl⟩⟩,
    fun _ => rfl, fun _ => ⟨Nat.zero_le _, Nat.zero_le _, Nat.zero_le _, Nat.zero_le _⟩, id, id, fun _ => Nat.zero_le _,
    fun h => ⟨h.1, Nat.zero_le _⟩, id, fun _ => hline, fun _ => hnotices, Nat.zero_le _⟩

theorem keeps_warmReset (s : State) (cause : ResetCause) : s.Keeps (s.warmReset cause) :=
  ((keeps_warmCleared s).trans (still_emit _ _).keeps).trans (keeps_inputSurvey _)

theorem keeps_requestedReset (s : State) : s.Keeps s.requestedReset := by
  unfold State.requestedReset
  split
  · exact .refl s
  · exact keeps_warmReset s _

theorem keeps_cold (s : State) : s.Keeps (State.cold s.pins 0 s.free s.pending) := by
  have hline : (State.cold s.pins 0 s.free s.pending).line.countsHeld := by
    refine ⟨Nat.zero_le _, fun p hp => ?_⟩
    obtain ⟨b, _, rfl⟩ := List.mem_map.1 hp
    exact Nat.zero_le _
  have hnotices : (State.cold s.pins 0 s.free s.pending).notices.countsHeld := fun p hp => by
    simp [State.cold, emptyNotices] at hp
  exact ⟨fun _ => by rw [climateHeld_iff]; exact ⟨by simp [State.cold, coldClimate], fun _ => ⟨rfl, rfl⟩⟩,
    fun _ => rfl, fun _ => ⟨Nat.zero_le _, Nat.zero_le _, Nat.zero_le _, Nat.zero_le _⟩, fun _ => Nat.zero_le _, fun _ => Nat.zero_le _,
    fun _ => Nat.zero_le _, fun _ => ⟨Nat.zero_le _, Nat.zero_le _⟩, fun _ => Nat.zero_le _, fun _ => hline, fun _ => hnotices,
    Nat.zero_le _⟩

theorem keeps_coldStarted (s : State) : s.Keeps s.coldStarted := (keeps_cold s).trans (keeps_inputSurvey _)

end Sys2Proof.Machine

namespace Sys2Proof.Machine

/-! ### The bounds of a step -/

/-- What O59 states of a step from one state to another. -/
def State.BoundsKept (s t : State) : Prop :=
  (s.climateHeld = true → t.climateHeld = true) ∧ (s.fireHeld = true → t.fireHeld = true) ∧
    (s.queuesBounded = true → t.queuesBounded = true) ∧ (s.countersHeld = true → t.countersHeld = true)

theorem State.Keeps.bounds {s t : State} (h : s.Keeps t) : s.BoundsKept t := by
  refine ⟨h.climate, h.fire, fun k => (queuesBounded_iff t).2 (h.queues ((queuesBounded_iff s).1 k)), fun k => ?_⟩
  obtain ⟨hclock, haccount, haccumulator, hdock, hnumber, hline, hnotices⟩ := (countersHeld_iff s).1 k
  exact (countersHeld_iff t).2 ⟨h.clock hclock, h.account haccount, h.accumulator haccumulator, h.dock hdock, h.number hnumber,
    h.line hline, h.notices hnotices⟩

theorem State.BoundsKept.after {s t u : State} (k : t.BoundsKept u) (h : s.Keeps t) : s.BoundsKept u :=
  ⟨k.1 ∘ h.bounds.1, k.2.1 ∘ h.bounds.2.1, k.2.2.1 ∘ h.bounds.2.2.1, k.2.2.2 ∘ h.bounds.2.2.2⟩

/-- The one answer to a request goes into the free place that was there when the request was taken (R177). -/
theorem boundsKept_queueAnswer {s t : State} (h : s.Keeps t) (hroom : s.answerRoom = true) (a : Answer) :
    s.BoundsKept (t.queueAnswer a) := by
  have h8 : s.line.answers.length < 8 := of_decide_eq_true hroom
  refine ⟨h.bounds.1, h.bounds.2.1, fun k => (queuesBounded_iff _).2 ?_, h.bounds.2.2.2⟩
  obtain ⟨hrequests, _, hpeerIn, hpeerOut⟩ := h.queues ((queuesBounded_iff s).1 k)
  have hanswers := h.answers
  refine ⟨hrequests, ?_, hpeerIn, hpeerOut⟩
  simp only [State.queueAnswer, State.withLine_line, List.length_append, List.length_singleton]
  omega

/-! ### Requests -/

theorem headRequest_room {s : State} {r : Request} (h : s.headRequest = some r) : s.answerRoom = true := by
  unfold State.headRequest at h
  split at h
  · cases h
  · simp_all

theorem still_popRequest (s : State) : s.Still s.popRequest := by
  refine still_withLine s _ rfl (fun ⟨h, k⟩ => ⟨?_, k⟩) id (Nat.le_refl _)
  simp only [List.length_drop]
  omega

/-- A request taken keeps the bounds where its owner does. -/
theorem boundsKept_takeRequest (s : State) (kind : RequestKind) (fits : List Byte → Bool) (owner : Request → State → Reply)
    (howner : ∀ (r : Request) (t : State), t.Keeps (owner r t).state) : s.BoundsKept (s.takeRequest kind fits owner) := by
  unfold State.takeRequest
  split
  · exact (State.Keeps.refl s).bounds
  · rename_i r hr
    split
    · refine boundsKept_queueAnswer ?_ (headRequest_room hr) _
      refine (still_popRequest s).keeps.trans ?_
      unfold judgeRequest
      split
      · exact .refl _
      · split
        · exact .refl _
        · split
          · exact .refl _
          · exact howner r _
    · exact (State.Keeps.refl s).bounds

theorem boundsKept_takeUnknown (s : State) : s.BoundsKept s.takeUnknown := by
  unfold State.takeUnknown
  split
  · exact (State.Keeps.refl s).bounds
  · rename_i r hr
    have hpop := (still_popRequest s).keeps
    split
    · exact (State.Keeps.refl s).bounds
    · split
      · exact boundsKept_queueAnswer hpop (headRequest_room hr) _
      · exact boundsKept_queueAnswer hpop (headRequest_room hr) _

/-! ### The requests on records and manifests -/

theorem keeps_enrolReply (r : Request) (s : State) : s.Keeps (enrolReply r s).state := by
  unfold enrolReply
  dsimp only
  split
  · split
    · exact .refl s
    · split
      · exact .refl s
      · exact keeps_putRecord s _
  · exact .refl s

theorem keeps_retireReply (r : Request) (s : State) : s.Keeps (retireReply r s).state := by
  unfold retireReply
  dsimp only
  split
  · split
    · exact .refl s
    · split
      · exact keeps_eraseRecord s _
      · exact .refl s
  · exact .refl s

theorem keeps_completeArrival (s : State) (x : Record) (peer : PeerField) (carried : Option Nat) (p : Position)
    (h : s.peerRoom = true) : s.Keeps (s.completeArrival x peer carried p) := by
  unfold State.completeArrival
  refine (still_queuePeer _ _ ?_).keeps.after ((keeps_eraseEntry _ _).after (keeps_putRecord s _))
  exact h

theorem keeps_shelveReply (r : Request) (s : State) : s.Keeps (shelveReply r s).state := by
  unfold shelveReply
  dsimp only
  split
  · split
    · exact .refl s
    · split
      · exact keeps_putRecord s _
      · exact keeps_putRecord s _
      · exact keeps_putRecord s _
      · split
        · exact keeps_completeArrival s _ _ _ _ ‹_›
        · exact .refl s
      · exact .refl s
  · exact .refl s

theorem keeps_queryRecordReply (r : Request) (s : State) : s.Keeps (queryRecordReply r s).state := by
  unfold queryRecordReply
  dsimp only
  split
  · split <;> exact .refl s
  · exact .refl s

/-- A disposition that keeps the bounds keeps them behind the shared checks. -/
theorem keeps_releaseChecked (r : Request) (s : State) (go : ReleaseFields → Record → Option Position → Option Nat → Reply)
    (h : ∀ f x p a, s.Keeps (go f x p a).state) : s.Keeps (releaseChecked r s go).state := by
  unfold releaseChecked
  dsimp only
  split
  · split
    · exact .refl s
    · split
      · exact h _ _ _ _
      · exact .refl s
  · exact .refl s

theorem keeps_releaseShelveReply (r : Request) (s : State) : s.Keeps (releaseShelveReply r s).state := by
  refine keeps_releaseChecked r s _ fun f x p _ => ?_
  split
  · exact .refl s
  · exact keeps_putRecord s _

theorem keeps_releaseConditionReply (r : Request) (s : State) : s.Keeps (releaseConditionReply r s).state :=
  keeps_releaseChecked r s _ fun _ _ _ _ => keeps_putRecord s _

theorem keeps_releaseRemoveReply (r : Request) (s : State) : s.Keeps (releaseRemoveReply r s).state :=
  keeps_releaseChecked r s _ fun _ _ _ _ => keeps_eraseRecord s _

theorem keeps_createManifest (s : State) (n : Nat) (members : List Ident) : s.Keeps (s.createManifest n members) :=
  (keeps_setManifest _ _ _).after (keeps_setRegister s _)

theorem keeps_checkOutReply (r : Request) (s : State) : s.Keeps (checkOutReply r s).state := by
  unfold checkOutReply
  dsimp only
  split
  · exact .refl s
  · split
    · exact .refl s
    · split
      · exact .refl s
      · split
        · exact .refl s
        · split
          · exact .refl s
          · exact keeps_createManifest s _ _

theorem keeps_cancelManifestReply (r : Request) (s : State) : s.Keeps (cancelManifestReply r s).state := by
  unfold cancelManifestReply
  dsimp only
  split
  · exact .refl s
  · split
    · exact .refl s
    · split
      · exact .refl s
      · exact keeps_endManifest s _ _ _

/-! ### The dock's requests and events -/

theorem keeps_enterLoading (s : State) (m : Option Nat) : s.Keeps (s.enterLoading m) :=
  keeps_withDock s _ fun h => ⟨h.1, Nat.zero_le _⟩

theorem keeps_bindManifest {s t : State} {n : Nat} (h : s.bindManifest n = some t) : s.Keeps t := by
  unfold State.bindManifest at h
  split at h
  · cases h
  · split at h
    · cases h
    · cases h
      exact keeps_setManifest s _ _

theorem keeps_authorizeReply (r : Request) (s : State) : s.Keeps (authorizeReply r s).state := by
  unfold authorizeReply
  dsimp only
  split
  · exact .refl s
  · split
    · exact .refl s
    · split
      · exact .refl s
      · split
        · split
          · exact keeps_enterLoading s _
          · exact .refl s
        · split
          · exact .refl s
          · split
            · exact .refl s
            · rename_i hb
              exact (keeps_bindManifest hb).trans (keeps_enterLoading _ _)

theorem keeps_denyReply (r : Request) (s : State) : s.Keeps (denyReply r s).state := by
  unfold denyReply
  split
  · exact .refl s
  · split
    · exact .refl s
    · exact keeps_endUncommitted s .denied

theorem keeps_startSession (s : State) : s.Keeps s.startSession := by
  refine (still_sendNext _).keeps.after (keeps_withDock s _ fun h => ⟨?_, h.2⟩)
  exact Nat.le_of_lt_succ (Nat.mod_lt _ (by decide))

theorem keeps_caseArrives (s : State) : s.Keeps s.caseArrives := by
  have hpresent := (still_withPins s { s.pins with casePresent := true }).keeps
  unfold State.caseArrives
  dsimp only
  split
  · split
    · refine (still_emit _ _).keeps.after ((keeps_withDock _ _ ?_).after hpresent)
      exact id
    · exact (keeps_startSession _).after hpresent
  · exact hpresent

theorem keeps_caseLeaves (s : State) : s.Keeps s.caseLeaves := by
  have habsent := (still_withPins s { s.pins with casePresent := false }).keeps
  unfold State.caseLeaves
  dsimp only
  split
  · refine (keeps_withDock _ _ ?_).after habsent
    exact id
  · exact (keeps_endCommitted _ _).after habsent
  · exact (keeps_endUncommitted _ _).after habsent

theorem keeps_closePressed (s : State) : s.Keeps s.closePressed := by
  unfold State.closePressed
  split
  · split
    · exact keeps_endUncommitted s _
    · exact (still_sendAtOnce _).keeps.after (keeps_withDock s _ fun h => ⟨h.1, Nat.zero_le _⟩)
  · exact .refl s

theorem keeps_cancelPressed (s : State) : s.Keeps s.cancelPressed :=
  .ite (fun _ => keeps_endUncommitted s _) fun _ => .refl s

/-! ### The case's answers -/

theorem keeps_setVerdict (s : State) (v : Verdict) : s.Keeps (s.setVerdict v) := keeps_withDock s _ id
theorem keeps_appendScan (s : State) (e : ScanEntry) : s.Keeps (s.appendScan e) := keeps_withDock s _ id

theorem keeps_judgeDepartScan (s : State) (id : Ident) : s.Keeps (s.judgeDepartScan id) := by
  unfold State.judgeDepartScan
  split
  · exact keeps_setVerdict s _
  · split
    · split
      · split
        · exact keeps_setVerdict s _
        · exact (keeps_appendScan _ _).after (keeps_putRecord s _)
      · exact keeps_setVerdict s _
    · exact keeps_setVerdict s _

theorem keeps_judgeReturnScan (s : State) (id : Ident) : s.Keeps (s.judgeReturnScan id) := by
  unfold State.judgeReturnScan
  split
  · exact keeps_setVerdict s _
  · split
    · split
      · exact (keeps_appendScan _ _).after (keeps_putRecord s _)
      · exact keeps_setVerdict s _
    · split
      · exact keeps_appendScan s _
      · exact keeps_setVerdict s _

theorem keeps_judgeScan (s : State) (id : Ident) : s.Keeps (s.judgeScan id) := by
  have htimed := keeps_withDock s { s.dock with idleTimer := some s.now } fun h => h
  unfold State.judgeScan
  dsimp only
  refine htimed.trans ?_
  split
  · exact keeps_setVerdict _ _
  · split
    · exact keeps_setVerdict _ _
    · split
      · exact keeps_setVerdict _ _
      · split
        · exact keeps_judgeReturnScan _ _
        · exact keeps_judgeDepartScan _ _

theorem keeps_commitDepart (s : State) (i : CaseIdentity) : s.Keeps (s.commitDepart i) := by
  unfold State.commitDepart
  refine (keeps_withDock _ _ ?_).after ((keeps_freeManifest _ _).after (keeps_setRegister s _))
  exact id

theorem keeps_commitReturn (s : State) (i : CaseIdentity) : s.Keeps (s.commitReturn i) := by
  unfold State.commitReturn
  refine (still_emitAll _ _).keeps.after ((keeps_withDock _ _ ?_).after (State.Keeps.foldl keeps_putRecord _ s))
  exact id

theorem keeps_commitPoint (s : State) (i : CaseIdentity) : s.Keeps (s.commitPoint i) := by
  unfold State.commitPoint
  refine (keeps_withDock _ _ ?_).after ?_
  · exact fun h => ⟨h.1, Nat.zero_le _⟩
  split
  · split
    · exact keeps_commitReturn s i
    · exact keeps_commitDepart s i
  · exact .refl s

theorem keeps_judgeEcho (s : State) (count : Byte) (digest : Word16) : s.Keeps (s.judgeEcho count digest) := by
  unfold State.judgeEcho
  split
  · split
    · exact keeps_commitPoint s _
    · exact keeps_endUncommitted s _
  · exact keeps_endUncommitted s _

theorem keeps_judgeDone (s : State) (count : Word16) : s.Keeps (s.judgeDone count) :=
  .ite (fun _ => keeps_endCommitted s _) fun _ => keeps_endCommitted s _

theorem keeps_takeIdentity (s : State) (caseId : BitVec 32) (badge : BitVec 24) (count : Word16) (intent : Byte)
    (intervals : List RawInterval) : s.Keeps (s.takeIdentity caseId badge count intent intervals) :=
  (still_emit _ _).keeps.after (keeps_withDock s _ fun h => ⟨h.1, Nat.zero_le _⟩)

theorem keeps_actOn (s : State) (f : CaseFrame) : s.Keeps (s.actOn f) := by
  unfold State.actOn
  split
  · exact keeps_withDock s _ fun h => ⟨h.1, Nat.zero_le _⟩
  · exact keeps_takeIdentity s _ _ _ _ _
  · exact keeps_judgeScan s _
  · exact keeps_setVerdict s _
  · exact keeps_judgeEcho s _ _
  · exact keeps_judgeDone s _
  · exact .refl s

theorem keeps_judgeAnswer (s : State) (sent : DockFrame) (answer : Option CaseFrame) : s.Keeps (s.judgeAnswer sent answer) := by
  unfold State.judgeAnswer
  split
  · split
    · exact (keeps_actOn _ _).after (keeps_withDock s _ fun h => ⟨h.1, Nat.zero_le _⟩)
    · exact keeps_frameFault s
  · exact keeps_frameFault s

theorem keeps_hearCase (s : State) (answer : Option CaseFrame) : s.Keeps (s.hearCase answer) := by
  unfold State.hearCase
  split
  · exact .refl s
  · split
    · exact .refl s
    · split
      · exact (still_endExchange s).keeps
      · exact (still_sendAtOnce _).keeps.after ((keeps_judgeAnswer _ _ _).after (still_endExchange s).keeps)

theorem keeps_answerTimesOut (s : State) : s.Keeps s.answerTimesOut := by
  unfold State.answerTimesOut
  split
  · exact .refl s
  · split
    · exact (still_endExchange s).keeps
    · exact (keeps_judgeAnswer _ _ _).after (still_endExchange s).keeps

/-! ### The fire unit's events -/

/-- Pins and inputs of the fire unit changed together. -/
theorem still_recordInputs (s : State) (p : Pins) (f : FireUnit) (hq : f.seq = s.fire.seq)
    (hn : f.neighbourAlert = s.fire.neighbourAlert) (hf : s.fireHeld = true → (s.withFire f).fireHeld = true) :
    s.Still ((s.withPins p).withFire f) := by
  refine State.Still.after ?_ (still_withPins s p)
  exact still_withFire (s.withPins p) f hq hn hf

theorem still_recordChannel (s : State) (k : Nat) (c : ChannelState) : s.Still (s.recordChannel k c) :=
  still_recordInputs s _ _ rfl rfl id

theorem keeps_channelChanges (s : State) (k : Nat) (c : ChannelState) : s.Keeps (s.channelChanges k c) := by
  have hrecorded := (still_recordChannel s k c).keeps
  exact (keeps_evaluate _).after (.ite (fun _ => (still_emit _ _).keeps.after hrecorded) fun _ => hrecorded)

theorem keeps_callOperated (s : State) : s.Keeps s.callOperated := by
  unfold State.callOperated
  refine (keeps_evaluate _).after (still_recordInputs s _ _ ?_ ?_ ?_).keeps
  · rfl
  · rfl
  · exact id

theorem still_callReleased (s : State) : s.Still s.callReleased :=
  still_recordInputs s _ _ rfl rfl id

theorem still_recordSwitch (s : State) (w : Switch) (on : Bool) : s.Still (s.recordSwitch w on) := by
  cases w with
  | hold => exact still_recordInputs s _ _ rfl rfl id
  | isolate => exact still_recordInputs s _ _ rfl rfl id

theorem still_recordDoor (s : State) (b : Bool) : s.Still (s.recordDoor b) :=
  still_recordInputs s _ _ rfl rfl id

theorem still_recordAgent (s : State) (b : Bool) : s.Still (s.recordAgent b) :=
  still_recordInputs s _ _ rfl rfl id

theorem keeps_countdownExpires (s : State) : s.Keeps s.countdownExpires := by
  unfold State.countdownExpires
  split
  · exact (still_emit _ _).keeps.after (keeps_enterSeq s _ _)
  · exact .refl s

theorem keeps_pulseEnds (s : State) : s.Keeps s.pulseEnds := by
  unfold State.pulseEnds
  split
  · exact keeps_enterSeq s _ _
  · exact .refl s

theorem keeps_soakEnds (s : State) : s.Keeps s.soakEnds := by
  unfold State.soakEnds
  split
  · exact keeps_enterSeq s _ _
  · exact .refl s

theorem keeps_fireResetTaken (s : State) : s.Keeps s.fireResetTaken :=
  (keeps_enterSeq _ _ _).after (still_withFire s { s.fire with callLatch := false } rfl rfl id).keeps

theorem keeps_fireResetReply (r : Request) (s : State) : s.Keeps (fireResetReply r s).state := by
  unfold fireResetReply
  split
  · exact .refl s
  · exact .refl s
  · exact .refl s
  · exact .refl s
  · split
    · exact .refl s
    · exact keeps_fireResetTaken s

/-! ### The other requests -/

theorem keeps_configureReply (r : Request) (s : State) : s.Keeps (configureReply r s).state := by
  unfold configureReply
  split
  · exact .refl s
  · rename_i h
    dsimp only
    exact keeps_acceptConfigure s _ _ (Bool.eq_false_iff.2 h)

theorem keeps_queryZoneReply (r : Request) (s : State) : s.Keeps (queryZoneReply r s).state := (still_withFree s _).keeps

theorem keeps_excursionClearReply (r : Request) (s : State) : s.Keeps (excursionClearReply r s).state :=
  (still_withClimate s { s.climate with account := 0, latch := false } (climateHeld_withClimate rfl rfl rfl)
    fun _ => Nat.zero_le _).keeps

theorem keeps_resetReply (r : Request) (s : State) : s.Keeps (resetReply r s).state := (still_setResetWait s _).keeps

end Sys2Proof.Machine

namespace Sys2Proof.Machine

/-! ### Transfers -/

theorem keeps_beginMove (s : State) (r : Record) (restore : Restore) (dest : Nat) (h : s.peerRoom = true) :
    s.Keeps (s.beginMove r restore dest) := by
  unfold State.beginMove
  refine (still_queuePeer _ _ ?_).keeps.after ((keeps_putEntry _ _).after ((keeps_putRecord _ _).after
    (keeps_withTransfer s _ ?_)))
  · exact h
  · exact fun _ => Nat.le_of_lt_succ (Nat.mod_lt _ (by decide))

theorem keeps_moveReply (r : Request) (s : State) : s.Keeps (moveReply r s).state := by
  unfold moveReply
  dsimp only
  split
  · exact .refl s
  · split
    · exact .refl s
    · split
      · exact .refl s
      · split
        · exact .refl s
        · split
          · exact .refl s
          · split
            · exact .refl s
            · split
              · exact .refl s
              · split
                · exact .refl s
                · rename_i hroom
                  exact keeps_beginMove s _ _ _ (by simpa using hroom)

theorem keeps_popPeer (s : State) : s.Keeps s.popPeer := by
  refine keeps_withLine s _ (fun ⟨hr, ha, hi, ho⟩ => ⟨hr, ha, ?_, ho⟩) id (Nat.le_refl _)
  simp only [List.length_drop]
  omega

/-- A message taken keeps the bounds where what is done with it does, with a free place in the peer output queue. -/
theorem keeps_takePeer (s : State) (kind : PeerKind) (act : PeerIn → State → State)
    (h : ∀ (m : PeerIn) (t : State), t.peerRoom = true → t.Keeps (act m t)) : s.Keeps (s.takePeer kind act) := by
  unfold State.takePeer
  split
  · rename_i hroom
    split
    · exact .refl s
    · split
      · split
        · exact (keeps_popPeer s).trans (h _ _ hroom)
        · exact keeps_popPeer s
      · exact .refl s
  · exact .refl s

theorem keeps_beginInbound (s : State) (o : OfferFields) (sender : Nat) (h : s.peerRoom = true) :
    s.Keeps (s.beginInbound o sender) := by
  unfold State.beginInbound
  refine (still_queuePeer _ _ ?_).keeps.after ((keeps_putEntry _ _).after (keeps_putRecord s _))
  exact h

theorem keeps_takeOffer (m : PeerIn) (s : State) (h : s.peerRoom = true) : s.Keeps (takeOffer m s) := by
  unfold takeOffer
  split
  · exact .refl s
  · split
    · exact (still_queuePeer s _ h).keeps
    · exact keeps_beginInbound s _ _ h

theorem keeps_takeTake (m : PeerIn) (s : State) (h : s.peerRoom = true) : s.Keeps (takeTake m s) := by
  unfold takeTake
  split
  · exact .refl s
  · split
    · exact (still_queuePeer s _ h).keeps
    · exact .ite (fun _ => keeps_putEntry s _) fun _ => .refl s

theorem keeps_takeDecline (m : PeerIn) (s : State) : s.Keeps (takeDecline m s) := by
  unfold takeDecline
  split
  · exact .refl s
  · split
    · exact .refl s
    · exact .ite (fun _ => keeps_keepCartridge s _ _ _) fun _ => .refl s

theorem keeps_takeWithdraw (m : PeerIn) (s : State) : s.Keeps (takeWithdraw m s) := by
  unfold takeWithdraw
  split
  · exact .refl s
  · split
    · exact .refl s
    · exact keeps_dropCartridge s _ _

theorem keeps_lateArrived (s : State) (id : Ident) (sender n : Nat) : s.Keeps (s.lateArrived id sender n) := by
  unfold State.lateArrived
  split
  · exact .refl s
  · split
    · exact (still_emit _ _).keeps.after (keeps_eraseRecord s _)
    · exact .refl s

theorem keeps_takeArrived (m : PeerIn) (s : State) : s.Keeps (takeArrived m s) := by
  unfold takeArrived
  split
  · exact .refl s
  · split
    · exact keeps_lateArrived s _ _ _
    · exact .ite (fun _ => keeps_lateArrived s _ _ _) fun _ => keeps_dropCartridge s _ _

theorem keeps_offerOutcome (s : State) (id : Ident) (n : Nat) (o : SendOutcome) : s.Keeps (s.offerOutcome id n o) := by
  unfold State.offerOutcome
  split
  · exact .refl s
  · split
    · exact keeps_putEntry s _
    · exact keeps_keepCartridge s _ _ _
    · exact keeps_keepCartridge s _ _ _
    · exact .refl s

theorem keeps_takeUndelivered (s : State) (id : Ident) (dest n : Nat) : s.Keeps (s.takeUndelivered id dest n) := by
  unfold State.takeUndelivered
  split
  · exact .refl s
  · exact keeps_dropCartridge s _ _

theorem keeps_peerOutcome (s : State) (m : PeerOut) (o : SendOutcome) : s.Keeps (s.peerOutcome m o) := by
  unfold State.peerOutcome
  split
  · exact keeps_offerOutcome s _ _ _
  · exact .refl s
  · exact keeps_takeUndelivered s _ _ _
  · exact .refl s
  · exact (still_emit s _).keeps
  · exact .refl s
  · exact .refl s

theorem keeps_offerWaitEnds (s : State) (id : Ident) : s.Keeps (s.offerWaitEnds id) := by
  unfold State.offerWaitEnds
  split
  · exact .refl s
  · split
    · exact keeps_keepCartridge s _ _ _
    · exact .refl s

theorem keeps_transitLimitEnds (s : State) (id : Ident) : s.Keeps (s.transitLimitEnds id) := by
  unfold State.transitLimitEnds
  split
  · exact .refl s
  · exact .ite (fun _ => keeps_expireTransit s _) fun _ => .refl s

theorem keeps_inboundTransitEnds (s : State) (id : Ident) : s.Keeps (s.inboundTransitEnds id) := by
  unfold State.inboundTransitEnds
  split
  · exact .refl s
  · exact .ite (fun _ => keeps_dropCartridge s _ _) fun _ => .refl s

/-! ### The own slot -/

theorem still_markSending (s : State) (item : SlotItem) : s.Still (s.markSending item) := by
  unfold State.markSending
  split
  · split
    · rename_i n hn
      refine still_setNotice s _ _ fun hs p hp => ?_
      cases hp
      exact ⟨(countsHeld_pendingNotice hs hn).1, Nat.zero_le _⟩
    · exact .refl s
  all_goals exact .refl s

/-- A change of the line unit outside the queues, the cycle number and the peer table. -/
theorem still_withLine_same (s : State) (l : LineUnit) (hr : l.requests = s.line.requests) (ha : l.answers = s.line.answers)
    (hi : l.peerIn = s.line.peerIn) (ho : l.peerOut = s.line.peerOut) (hc : l.cycle = s.line.cycle)
    (hp : l.peers = s.line.peers) : s.Still (s.withLine l) := by
  refine still_withLine s l hi ?_ ?_ (Nat.le_of_eq (by rw [ha]))
  · simp only [LineUnit.queuesHeld, hr, ha, hi, ho, imp_self]
  · simp only [LineUnit.countsHeld, hc, hp, imp_self]

theorem still_send (s : State) (item : SlotItem) : s.Still (s.send item) := by
  unfold State.send
  refine (still_withFree _ _).after ((still_withLine_same _ _ ?_ ?_ ?_ ?_ ?_ ?_).after (still_markSending s item)) <;> rfl

theorem still_slotStarts (s : State) : s.Still s.slotStarts := by
  unfold State.slotStarts
  split
  · exact still_send s _
  · exact .refl s

theorem countsHeld_noticeAfter {records : Bool} {o : SendOutcome} {n p : PendingNotice} (h : n.countsHeld)
    (hp : noticeAfter records o n = some p) : p.countsHeld := by
  obtain ⟨hrepeats, hslot⟩ := h
  unfold noticeAfter at hp
  split at hp
  · cases hp
  · split at hp
    · split at hp
      · cases hp
      · cases hp
        exact ⟨by dsimp only; omega, Nat.zero_le _⟩
    all_goals
      cases hp
      exact ⟨hrepeats, Nat.zero_le _⟩

theorem still_noticeOutcome (s : State) (source : Nat) (o : SendOutcome) : s.Still (s.noticeOutcome source o) := by
  unfold State.noticeOutcome
  split
  · exact .refl s
  · rename_i n hn
    exact still_setNotice s _ _ fun hs p hp => countsHeld_noticeAfter (countsHeld_pendingNotice hs hn) hp

theorem still_popPeerOut (s : State) : s.Still s.popPeerOut := by
  refine still_withLine s _ rfl (fun ⟨hr, ha, hi, ho⟩ => ⟨hr, ha, hi, ?_⟩) id (Nat.le_refl _)
  simp only [List.length_drop]
  omega

theorem still_popAnswer (s : State) : s.Still s.popAnswer := by
  refine still_withLine s _ rfl (fun ⟨hr, ha, hi, ho⟩ => ⟨hr, ?_, hi, ho⟩) id ?_
  all_goals
    simp only [List.length_drop]
    omega

theorem keeps_finishItem (s : State) (item : SlotItem) (o : SendOutcome) : s.Keeps (s.finishItem item o) := by
  cases item with
  | beacon b => exact .refl s
  | notice source => exact (still_noticeOutcome s _ _).keeps
  | peer m => exact (keeps_peerOutcome _ _ _).after (still_popPeerOut s).keeps
  | answer a => exact (still_popAnswer s).keeps

theorem keeps_finishSending (s : State) (sent : Sending) (o : SendOutcome) : s.Keeps (s.finishSending sent o) :=
  (keeps_finishItem _ _ _).after (still_withLine_same s { s.line with sending := none } rfl rfl rfl rfl rfl rfl).keeps

theorem still_readBackConflict (s : State) (same : Bool) : s.Still (s.readBackConflict same) :=
  .ite (fun _ => .refl s) fun _ => still_emit s _

theorem keeps_slotEnds (s : State) (same accept refuse : Bool) : s.Keeps (s.slotEnds same accept refuse) := by
  unfold State.slotEnds
  split
  · exact .refl s
  · rename_i sent _
    have hfinished : s.Keeps ((s.readBackConflict (same && !sent.conflict)).finishSending sent
        (slotOutcome (same && !sent.conflict) accept refuse)) :=
      (keeps_finishSending _ _ _).after (still_readBackConflict s _).keeps
    exact .ite (fun _ => (keeps_requestedReset _).after hfinished) fun _ => hfinished

/-! ### Marks, the alarm field, messages heard -/

theorem markNumber_le {mark : Byte} {n : Nat} (h : markNumber mark = some n) : n ≤ 9 := by
  simp only [markNumber] at h
  split at h
  · rename_i hlow
    cases h
    exact hlow.2
  · cases h

theorem markGives_le (s : State) (mark : Byte) : s.markGives mark ≤ 9 := by
  unfold State.markGives
  cases h : markNumber mark with
  | none => exact Nat.le_of_lt_succ (Nat.mod_lt _ (by decide))
  | some n => exact markNumber_le h

theorem still_takeMark (s : State) (mark : Byte) : s.Still (s.takeMark mark) :=
  still_withLine s _ rfl id (fun h => ⟨markGives_le s mark, h.2⟩) (Nat.le_refl _)

theorem keeps_hearMark (s : State) (mark : Byte) : s.Keeps (s.hearMark mark) := by
  unfold State.hearMark
  split
  · exact (still_takeMark s mark).keeps
  · rename_i sent _
    have hmarked : s.Keeps ((s.finishSending sent .unanswered).takeMark mark) :=
      (still_takeMark _ _).keeps.after (keeps_finishSending s _ _)
    exact .ite (fun _ => (keeps_requestedReset _).after hmarked) fun _ => hmarked

theorem keeps_cycleTimerEnds (s : State) (readBack : Byte) : s.Keeps (s.cycleTimerEnds readBack) :=
  (keeps_hearMark _ _).after (still_withLine_same s { s.line with markSent := some (markByte ((s.line.cycle + 1) % 10)) }
    rfl rfl rfl rfl rfl rfl).keeps

theorem missed_recordPairs {field : BitVec 33} {own base : Nat} {peers : List PeerEntry} (h : ∀ p ∈ peers, p.missed ≤ 3) :
    ∀ p ∈ recordPairs field own base peers, p.missed ≤ 3 := by
  induction peers generalizing base with
  | nil => simp [recordPairs]
  | cons q peers ih =>
    intro p hp
    rcases List.mem_cons.1 hp with rfl | hp
    · have hq := h q (by simp)
      split <;> exact hq
    · exact ih (fun p hp => h p (by simp [hp])) p hp

/-- The general alarm recorded, the fire outputs refreshed. -/
theorem still_recordGeneral (s : State) (b : Bool) :
    s.Still (s.withFire { s.fire with generalSeen := b }).refreshFireOutputs := by
  refine still_withFire s { s.fire with generalSeen := b, sounder := sounderFor s.fire.seq b,
                                        damperClosed := damperFor s.fire.seq s.fire.neighbourAlert } rfl rfl fun h => ?_
  obtain ⟨hrelease, hcountdown, hpulse, hsoak⟩ := fireTimersHeld h
  simp [State.fireHeld, hrelease, hcountdown, hpulse, hsoak]

theorem still_alarmFieldRead (s : State) (others : BitVec 33) : s.Still (s.alarmFieldRead others) := by
  unfold State.alarmFieldRead
  dsimp only
  split
  · refine (still_judgeNeighbours _).after ((still_recordGeneral _ _).after (still_withLine s _ rfl id ?_ (Nat.le_refl _)))
    exact fun h => ⟨h.1, missed_recordPairs h.2⟩
  · exact .refl s

theorem still_hearBeacon (s : State) (slot : Nat) (b : Beacon) : s.Still (s.hearBeacon slot b) := by
  unfold State.hearBeacon
  split
  · exact .refl s
  · rename_i p _
    have hstored : s.Still (s.setPeer slot { p with presence := .present, missed := 0, heard := true, beacon := some b }) :=
      still_setPeer s _ _ fun _ => Nat.zero_le _
    exact .ite (fun _ => hstored) fun _ => (still_judgeNeighbours _).after ((still_emit _ _).after hstored)

theorem still_drive (s : State) (a : Acceptance) : s.Still (s.drive a) := still_withLine_same s _ rfl rfl rfl rfl rfl rfl

theorem still_admitRequest (s : State) (slot : Nat) (f : SlotFrame) : s.Still (s.admitRequest slot f) := by
  unfold State.admitRequest
  split
  · rename_i h
    have h8 : s.line.requests.length < 8 := of_decide_eq_true (Bool.and_eq_true_iff.1 h).2
    refine (still_drive _ _).after (still_withLine s _ rfl (fun ⟨_, k⟩ => ⟨?_, k⟩) id (Nat.le_refl _))
    simp only [List.length_append, List.length_singleton]
    omega
  · exact still_drive s _

theorem keeps_admitPeer (s : State) (slot : Nat) (kind : PeerKind) (f : SlotFrame) : s.Keeps (s.admitPeer slot kind f) := by
  unfold State.admitPeer
  split
  · rename_i h
    have h8 : s.line.peerIn.length < 8 := of_decide_eq_true (Bool.and_eq_true_iff.1 h).2
    refine (still_drive _ _).keeps.after (keeps_withLine s _ (fun ⟨hr, ha, _, ho⟩ => ⟨hr, ha, ?_, ho⟩) id (Nat.le_refl _))
    simp only [List.length_append, List.length_singleton]
    omega
  · exact (still_drive s _).keeps

theorem keeps_judgeMessage (s : State) (slot : Nat) (kind : Byte) (f : SlotFrame) : s.Keeps (s.judgeMessage slot kind f) := by
  unfold State.judgeMessage
  split
  · exact (still_admitRequest s _ _).keeps
  · exact (still_drive s _).keeps
  · exact (still_drive s _).keeps
  · split
    · exact keeps_admitPeer s _ _ _
    · exact (still_drive s _).keeps

theorem still_hearOwnSlot (s : State) (kind : Byte) (f : SlotFrame) : s.Still (s.hearOwnSlot kind f) :=
  .ite (fun _ => .refl s) fun _ => still_emit s _

theorem keeps_hearSlot (s : State) (slot : Nat) (kind : Byte) (f : SlotFrame) : s.Keeps (s.hearSlot slot kind f) := by
  have hother : s.Keeps (s.hearOther slot kind f) := by
    unfold State.hearOther
    split
    · split
      · exact (still_hearBeacon _ _ _).keeps.after (still_drive s _).keeps
      · exact .ite (fun _ => keeps_judgeMessage s _ _ _) fun _ => (still_drive s _).keeps
    · exact (still_drive s _).keeps
  exact .ite (fun _ => .ite (fun _ => (still_hearOwnSlot s _ _).keeps) fun _ => hother) fun _ => .refl s

theorem still_conflictShows (s : State) (sign : ConflictSign) : s.Still (s.conflictShows sign) := by
  unfold State.conflictShows
  split
  · exact .ite (fun _ => still_hearOwnSlot s _ _) fun _ => .refl s
  · split
    · exact .refl s
    · exact still_withLine_same s _ rfl rfl rfl rfl rfl rfl

/-! ### The clock -/

theorem saturate_le (n : Nat) : saturate n ≤ 16777215 := Nat.min_le_right _ _

theorem still_chargeExcursion (s : State) : s.Still s.chargeExcursion := by
  have hcharged (latch : Bool) : s.Still (s.withClimate { s.climate with
      account := saturate (s.climate.account + s.minuteCharge), latch := latch }) :=
    still_withClimate s _ (climateHeld_withClimate rfl rfl rfl) fun _ => saturate_le _
  unfold State.chargeExcursion
  split
  · exact .ite (fun _ => (still_emit _ _).after (hcharged true)) fun _ => hcharged _
  · exact .refl s

theorem keeps_minuteStep (s : State) : s.Keeps s.minuteStep := by
  unfold State.minuteStep
  split
  · refine (still_chargeExcursion _).keeps.after ((keeps_setEntries _ _).after (keeps_withCustody s _ ?_))
    exact id
  · exact .refl s

theorem keeps_second (s : State) : s.Keeps s.second := by
  have hticked := (still_withNow s ((s.now / 1000 + 1) * 1000)).keeps
  unfold State.second
  split
  · rename_i htop
    have hcounted : s.Keeps ((s.withNow ((s.now / 1000 + 1) * 1000)).withCustody { s.custody with
        zoneClock := s.custody.zoneClock + 1, minuteDue := (s.custody.zoneClock + 1) % 60 == 0 }) :=
      hticked.trans (keeps_withCustody _ _ fun _ => htop)
    exact .ite (fun _ => (keeps_runningSecond _).after hcounted) fun _ => hcounted
  · exact hticked

theorem keeps_rolloverStep (s : State) : s.Keeps s.rolloverStep := .ite (fun _ => keeps_rollover s) fun _ => .refl s

/-! ### Every command -/

/-- A timer of a session state that runs out ends the session in that state, and has no effect in another. -/
theorem keeps_timerEnds (s : State) (q : SessionState) (o : SessionOutcome) :
    s.Keeps (if s.dock.session = q then s.endUncommitted o else s) := .ite (fun _ => keeps_endUncommitted s o) fun _ => .refl s

/-- The refused display ends (R46): the indicator and its timer alone. -/
theorem still_displayEnds (s : State) :
    s.Still (if s.dock.indicator = .refused then s.withDock { s.dock with indicator := .off, displayTimer := none } else s) :=
  .ite (fun _ => still_withDock s _ rfl rfl rfl rfl id) fun _ => .refl s

/-- A command taken on the settled state keeps the bounds where its effect does. -/
theorem taken_bounds {s t : State} {effect : State → State} (h : ∀ u : State, u.Keeps (effect u))
    (ht : taken s effect = .next t) : s.BoundsKept t := by
  cases ht
  exact ((keeps_settle s).trans (h _)).bounds

/-- As `taken_bounds`, for the commands that leave an answer. -/
theorem taken_boundsKept {s t : State} {effect : State → State} (h : ∀ u : State, u.BoundsKept (effect u))
    (ht : taken s effect = .next t) : s.BoundsKept t := by
  cases ht
  exact (h _).after (keeps_settle s)

/-- A row that takes the requests of a kind keeps the bounds where their owner does. -/
theorem taken_request_bounds {s t : State} {kind : RequestKind} {fits : List Byte → Bool} {owner : Request → State → Reply}
    (h : ∀ (r : Request) (u : State), u.Keeps (owner r u).state)
    (ht : taken s (fun u => u.takeRequest kind fits owner) = .next t) : s.BoundsKept t :=
  taken_boundsKept (fun u => boundsKept_takeRequest u kind fits owner h) ht

/-- A follow-on step keeps the bounds where it does so on the state as it stands. -/
theorem next_bounds {s t u : State} (h : s.Keeps u) (ht : (.next u : Host.Outcome State Fault Refusal) = .next t) : s.BoundsKept t := by
  cases ht
  exact h.bounds

theorem exec_bounds (c : Instr) (s t : State) (h : exec c s = .next t) : s.BoundsKept t := by
  cases c with
  | coldStart => exact next_bounds (keeps_coldStarted s) h
  | warmReset => exact taken_bounds (fun u => keeps_warmReset u _) h
  | zoneClockSecond => exact taken_bounds (fun u => ((keeps_minuteStep u).trans (keeps_settle _)).trans (keeps_second _)) h
  | minuteEvent => exact taken_bounds keeps_minuteStep h
  | manifestExpiry => exact next_bounds (keeps_expireManifestStep s) h
  | rollover => exact next_bounds (keeps_rolloverStep s) h
  | conditioningComplete => exact next_bounds (keeps_completeStep s) h
  | enrol => exact taken_request_bounds keeps_enrolReply h
  | retire => exact taken_request_bounds keeps_retireReply h
  | shelve => exact taken_request_bounds keeps_shelveReply h
  | queryRecord => exact taken_request_bounds keeps_queryRecordReply h
  | releaseSuspectShelve => exact taken_request_bounds keeps_releaseShelveReply h
  | releaseSuspectCondition => exact taken_request_bounds keeps_releaseConditionReply h
  | releaseSuspectRemove => exact taken_request_bounds keeps_releaseRemoveReply h
  | checkOut => exact taken_request_bounds keeps_checkOutReply h
  | cancelManifest => exact taken_request_bounds keeps_cancelManifestReply h
  | authorize => exact taken_request_bounds keeps_authorizeReply h
  | deny => exact taken_request_bounds keeps_denyReply h
  | move => exact taken_request_bounds keeps_moveReply h
  | queryZone => exact taken_request_bounds keeps_queryZoneReply h
  | excursionClear => exact taken_request_bounds keeps_excursionClearReply h
  | fireReset => exact taken_request_bounds keeps_fireResetReply h
  | configure => exact taken_request_bounds keeps_configureReply h
  | reset => exact taken_request_bounds keeps_resetReply h
  | unknownRequest => exact taken_boundsKept boundsKept_takeUnknown h
  | resetAnswerTimeout => exact taken_bounds keeps_requestedReset h
  | keyTurn on => exact taken_bounds (fun u => (still_withPins u { u.pins with keyOn := on }).keeps) h
  | cycleMark mark => exact taken_bounds (fun u => keeps_hearMark u mark) h
  | cycleTimerExpiry readBack => exact taken_bounds (fun u => keeps_cycleTimerEnds u readBack) h
  | superframeEnd => exact next_bounds (still_superframeStep s).keeps h
  | peerAbsent a => exact next_bounds (still_makeAbsent s a.val).keeps h
  | alarmField others => exact taken_bounds (fun u => (still_alarmFieldRead u others).keeps) h
  | beaconReceived slot f => exact taken_bounds (fun u => keeps_hearSlot u slot.val 1 f) h
  | requestReceived slot f => exact taken_bounds (fun u => keeps_hearSlot u slot.val 2 f) h
  | peerMessageReceived slot kind f => exact taken_bounds (fun u => keeps_hearSlot u slot.val (peerKindByte kind) f) h
  | ignoredMessage slot kind f => exact taken_bounds (fun u => keeps_hearSlot u slot.val (ignoredKindByte kind) f) h
  | unknownKindMessage slot kind f => exact taken_bounds (fun u => keeps_hearSlot u slot.val kind f) h
  | addressConflict sign => exact taken_bounds (fun u => (still_conflictShows u sign).keeps) h
  | slotStart => exact taken_bounds (fun u => (still_slotStarts u).keeps) h
  | slotEnd same accept refuse => exact taken_bounds (fun u => keeps_slotEnds u same accept refuse) h
  | offer => exact taken_bounds (fun u => keeps_takePeer u .offer takeOffer keeps_takeOffer) h
  | take => exact taken_bounds (fun u => keeps_takePeer u .take takeTake keeps_takeTake) h
  | decline => exact taken_bounds (fun u => keeps_takePeer u .decline takeDecline fun m v _ => keeps_takeDecline m v) h
  | withdraw => exact taken_bounds (fun u => keeps_takePeer u .withdraw takeWithdraw fun m v _ => keeps_takeWithdraw m v) h
  | arrived => exact taken_bounds (fun u => keeps_takePeer u .arrived takeArrived fun m v _ => keeps_takeArrived m v) h
  | offerWaitExpiry id => exact taken_bounds (fun u => keeps_offerWaitEnds u id) h
  | transitLimitExpiry id => exact next_bounds (keeps_transitLimitEnds s id) h
  | inboundTransitExpiry id => exact next_bounds (keeps_inboundTransitEnds s id) h
  | caseArrival => exact taken_bounds keeps_caseArrives h
  | caseRemoval => exact taken_bounds keeps_caseLeaves h
  | closeKey => exact taken_bounds keeps_closePressed h
  | cancelKey => exact taken_bounds keeps_cancelPressed h
  | dockFrameSend => exact taken_bounds (fun u => (still_sendNext u).keeps) h
  | dockAnswerTimeout => exact taken_bounds keeps_answerTimesOut h
  | malformedCaseFrame bytes => exact taken_bounds (fun u => keeps_hearCase u _) h
  | awake => exact taken_bounds (fun u => keeps_hearCase u _) h
  | identity caseId badge count intent intervals => exact taken_bounds (fun u => keeps_hearCase u _) h
  | scan id => exact taken_bounds (fun u => keeps_hearCase u _) h
  | nothing => exact taken_bounds (fun u => keeps_hearCase u _) h
  | echo count digest => exact taken_bounds (fun u => keeps_hearCase u _) h
  | done count => exact taken_bounds (fun u => keeps_hearCase u _) h
  | wakingTimeout => exact taken_bounds (fun u => keeps_timerEnds u _ _) h
  | identityTimeout => exact taken_bounds (fun u => keeps_timerEnds u _ _) h
  | authTimeout => exact taken_bounds (fun u => keeps_timerEnds u _ _) h
  | idleTimeout => exact taken_bounds (fun u => keeps_timerEnds u _ _) h
  | refusedDisplayExpiry => exact taken_bounds (fun u => (still_displayEnds u).keeps) h
  | pollRound => exact taken_bounds (fun u => (still_startRound u).keeps) h
  | probeAnswer bytes => exact taken_bounds (fun u => (still_hearProbe u bytes).keeps) h
  | probeAnswerTimeout => exact taken_bounds (fun u => (still_probeTimesOut u).keeps) h
  | channelEvent channel state => exact taken_bounds (fun u => keeps_channelChanges u channel.val state) h
  | manualCallOperation => exact taken_bounds keeps_callOperated h
  | manualCallRelease => exact taken_bounds (fun u => (still_callReleased u).keeps) h
  | holdOrIsolateChange switch on =>
    exact taken_bounds (fun u => (still_recordSwitch u switch on).keeps.trans (keeps_judgeSwitches _)) h
  | doorChange b => exact taken_bounds (fun u => (still_recordDoor u b).keeps) h
  | agentReadyChange b => exact taken_bounds (fun u => (still_recordAgent u b).keeps) h
  | countdownExpiry => exact taken_bounds keeps_countdownExpires h
  | pulseEnd => exact taken_bounds keeps_pulseEnds h
  | soakExpiry => exact taken_bounds keeps_soakEnds h
  | addressStrapChange a => exact taken_bounds (fun u => (still_withPins u { u.pins with straps := a.val }).keeps) h

theorem step_bounds (s t : State) (h : step s = .next t) : s.BoundsKept t := by
  unfold step at h
  split at h
  · refine next_bounds ?_ h
    exact .ite (fun _ => .refl s) fun _ => (still_withNow s _).keeps
  · rename_i rest _
    exact (exec_bounds _ _ _ h).after (still_withPending s rest).keeps

/-- Settles O59: every operation of the model keeps the bounds (`State.Keeps`), so every command does. -/
theorem stepKeepsOutputsAndBounds : Obligations.StepKeepsOutputsAndBounds :=
  ⟨fun s t hs h => (step_bounds s t h).1 hs, fun s t hs h => (step_bounds s t h).2.1 hs,
    fun s t hs h => (step_bounds s t h).2.2.1 hs, fun s t hs h => (step_bounds s t h).2.2.2 hs⟩

end Sys2Proof.Machine

namespace Sys2Proof.Machine

/-! ### The machine -/

/-- Settles O1. -/
theorem stepRunsFrontCommand : Obligations.StepRunsFrontCommand := by
  constructor
  · intro s c rest h
    rw [step, h]
    rfl
  · intro s h
    have hstep : step s = .next s.tick := by rw [step, h]
    rw [hstep]
    cases s
    subst h
    simp only [State.tick, State.withNow]
    split <;> rfl

/-- Settles O27: each invariant evaluated on the one state after reset. -/
theorem resetMeetsTheInvariants : Obligations.ResetMeetsTheInvariants :=
  ⟨by decide +kernel, rfl, rfl, rfl, by decide +kernel, by decide +kernel, by decide +kernel, by decide +kernel⟩

/-! ### Tables: lengths -/

theorem length_putBy_of_absent {α : Type} {key : α → Ident} {item : α} {l : List α} (h : findBy key (key item) l = none) :
    (putBy key item l).length = l.length + 1 := by
  induction l with
  | nil => rfl
  | cons x l ih =>
    rw [findBy_cons] at h
    split at h
    · cases h
    · rename_i hne
      rw [putBy, if_neg hne]
      split
      · rfl
      · rw [List.length_cons, List.length_cons, ih h]

theorem eraseBy_of_absent {α : Type} {key : α → Ident} {id : Ident} {l : List α} (h : findBy key id l = none) :
    eraseBy key id l = l := by
  rw [findBy_eq_none] at h
  rw [eraseBy, List.filter_eq_self]
  exact fun x hx => decide_eq_true (h x hx)

theorem length_eraseBy_of_found {α : Type} {key : α → Ident} {id : Ident} {x : α} {l : List α} (hs : sortedBy key l = true)
    (h : findBy key id l = some x) : (eraseBy key id l).length + 1 = l.length := by
  induction l with
  | nil => cases h
  | cons y l ih =>
    obtain ⟨hy, hl⟩ := List.pairwise_cons.1 ((sortedBy_iff_pairwise key _).1 hs)
    rw [findBy_cons] at h
    split at h
    · rename_i hid
      have habsent : findBy key id l = none := (findBy_eq_none key).2 fun z hz hzid =>
        identLt_ne (hy z hz) (hid.trans hzid.symm)
      have hrest : eraseBy key id (y :: l) = eraseBy key id l := by simp [eraseBy, hid]
      rw [hrest, eraseBy_of_absent habsent, List.length_cons]
    · rename_i hid
      have hrest : eraseBy key id (y :: l) = y :: eraseBy key id l := by simp [eraseBy, hid]
      rw [hrest, List.length_cons, List.length_cons, ih ((sortedBy_iff_pairwise key l).2 hl) h]

/-! ### Requests answered -/

/-- The state with the head request gone, as the owner of a request sees it. -/
def State.popped (s : State) (rest : List Request) : State := { s with line := { s.line with requests := rest } }

/-- A ready request whose owner changes nothing is answered with the owner's result. -/
theorem taken_unchanged {s : State} {r : Request} {rest : List Request} (h : s.ready r rest) {kind : RequestKind} (hp : s.passes kind)
    {fits : List Byte → Bool} {owner : Request → State → Reply} (hk : requestKindOf r.payload = some kind)
    (hf : fits (requestFields r.payload) = true) (hw : layoutWhole kind (requestFields r.payload) = true) {result : Result}
    {content : List Byte} (ho : owner r (s.popped rest) = ⟨s.popped rest, result, content⟩) :
    taken s (fun t => t.takeRequest kind fits owner) = .next (s.answered r rest (kindByte kind) result content) := by
  rw [taken_reply h kind hp hk hf hw _ ho]
  rfl

/-- A ready request that its owner does on the register: the answer and the register's change. -/
theorem taken_register {s : State} {r : Request} {rest : List Request} (h : s.ready r rest) {kind : RequestKind} (hp : s.passes kind)
    {fits : List Byte → Bool} {owner : Request → State → Reply} (hk : requestKindOf r.payload = some kind)
    (hf : fits (requestFields r.payload) = true) (hw : layoutWhole kind (requestFields r.payload) = true) {l : List Record}
    (ho : owner r (s.popped rest) = ((s.popped rest).setRegister l).doneReply) :
    taken s (fun t => t.takeRequest kind fits owner) = .next ((s.answered r rest (kindByte kind) .done []).setRegister l) := by
  rw [taken_reply h kind hp hk hf hw _ ho]
  rfl

/-- The position behind an identifier. -/
theorem positionAt_append {id : Ident} {rack slot : Byte} {rest : List Byte} (h : id.length = 10) :
    positionAt (id ++ rack :: slot :: rest) 10 = if slot.toNat ≤ 63 then some ⟨rack.toNat, slot.toNat⟩ else none := by
  have h0 : byteAt (id ++ rack :: slot :: rest) 10 = rack.toNat := byteAt_append id _ 10 0 h
  have h1 : byteAt (id ++ rack :: slot :: rest) 11 = slot.toNat := byteAt_append id _ 10 1 h
  simp only [positionAt, h0, h1]

/-! ### ENROL and RETIRE -/

/-- ENROL by its checks, in their order. -/
theorem enrolReply_eq {r : Request} {id : Ident} {rack slot : Byte} (t : State) (hl : id.length = 10)
    (hr : r.payload = 1 :: (id ++ [rack, slot])) : enrolReply r t =
      if identOk id = true ∧ slot.toNat ≤ 63 then
        if t.known id then t.refuse .duplicate
        else if 1024 ≤ t.occupancy then t.refuse .registerFull
        else (t.putRecord ⟨id, .shelved (some ⟨rack.toNat, slot.toNat⟩), none, false, t.minute⟩).doneReply
      else t.refuse .malformed := by
  have hid : slice (id ++ [rack, slot]) 0 10 = id := slice_append _ _ _ hl
  simp only [enrolReply, requestFields, hr, List.drop_one, List.tail_cons, hid, positionAt_append hl]
  by_cases hok : identOk id = true
  · by_cases hslot : slot.toNat ≤ 63
    · rw [if_pos hslot, hok]
      exact (if_pos ⟨rfl, hslot⟩).symm
    · rw [if_neg hslot, hok]
      exact (if_neg fun h => hslot h.2).symm
  · rw [Bool.eq_false_iff.2 hok]
    exact (if_neg fun h => nomatch h.1).symm

/-- Settles O11. -/
theorem enrolAnswersByItsChecks : Obligations.EnrolAnswersByItsChecks := by
  intro s r rest id rack slot h hp hl hr
  have hk : requestKindOf r.payload = some .enrol := by rw [hr]; rfl
  have hw : layoutWhole .enrol (requestFields r.payload) = true := by simp [hr, requestFields, layoutWhole, hl]
  have howner := enrolReply_eq (s.popped rest) hl hr
  refine ⟨fun hbad => ?_, fun hok hslot hknown => ?_, fun hok hslot hknown hfull => ?_, fun hok hslot hknown hroom => ?_⟩
  · refine taken_unchanged h hp hk rfl hw (howner.trans (if_neg ?_))
    rintro ⟨hok, hslot⟩
    rcases hbad with hbad | hbad
    · rw [hok] at hbad
      cases hbad
    · omega
  · exact taken_unchanged h hp hk rfl hw ((howner.trans (if_pos ⟨hok, hslot⟩)).trans (if_pos hknown))
  · have hnew : ¬(s.popped rest).known id = true := Bool.eq_false_iff.1 hknown
    exact taken_unchanged h hp hk rfl hw (((howner.trans (if_pos ⟨hok, hslot⟩)).trans (if_neg hnew)).trans (if_pos hfull))
  · have hnew : ¬(s.popped rest).known id = true := Bool.eq_false_iff.1 hknown
    have habsent : s.find id = none := by
      simp only [State.known, Bool.or_eq_false_iff] at hknown
      simpa using hknown.1
    refine ⟨_, taken_register h hp hk rfl hw (((howner.trans (if_pos ⟨hok, hslot⟩)).trans (if_neg hnew)).trans
      (if_neg (Nat.not_le.2 hroom))), rfl, findBy_putBy_same Record.id (Record.mk id _ _ _ _) _, fun other ho => findBy_putBy_other Record.id ho _, ?_⟩
    have hlength := length_putBy_of_absent (key := Record.id) (l := s.custody.register)
      (item := ⟨id, .shelved (some ⟨rack.toNat, slot.toNat⟩), none, false, (s.popped rest).minute⟩) habsent
    have hscans : (s.answered r rest (kindByte .enrol) .done []).dock = s.dock := rfl
    simp only [State.occupancy, State.setRegister, State.withCustody_custody, State.withCustody_dock, hscans]
    exact (congrArg (· + _) hlength).trans (Nat.add_right_comm _ _ _)

/-- RETIRE by its checks, in their order. -/
theorem retireReply_eq {r : Request} {id : Ident} (t : State) (hl : id.length = 10) (hr : r.payload = 2 :: id) : retireReply r t =
      if identOk id = true then
        match t.find id with
        | none => t.refuse .noSuchRecord
        | some x => if x.st.code = 0 then (t.eraseRecord id).doneReply else t.refuse .wrongState
      else t.refuse .malformed := by
  have hid : slice id 0 10 = id := by rw [slice, List.drop_zero, List.take_of_length_le (Nat.le_of_eq hl)]
  simp only [retireReply, requestFields, hr, List.drop_one, List.tail_cons, hid]
  congr 1
  cases t.find id with
  | none => rfl
  | some x => rcases x with ⟨_, st, _, _, _⟩; cases st <;> rfl

/-- Settles O12. -/
theorem retireDeletesShelvedRecord : Obligations.RetireDeletesShelvedRecord := by
  intro s r rest id h hp hl hr
  have hk : requestKindOf r.payload = some .retire := by rw [hr]; rfl
  have hw : layoutWhole .retire (requestFields r.payload) = true := by simp [hr, requestFields, layoutWhole, hl]
  have howner := retireReply_eq (s.popped rest) hl hr
  have hfind : (s.popped rest).find id = s.find id := rfl
  rw [hfind] at howner
  refine ⟨fun hbad => ?_, fun hok hnone => ?_, fun x hok hx hstate => ?_, fun x hok hx hstate hcanonical => ?_⟩
  · exact taken_unchanged h hp hk rfl hw (howner.trans (if_neg (by simp [hbad])))
  · refine taken_unchanged h hp hk rfl hw (howner.trans ((if_pos hok).trans ?_))
    rw [hnone]
    rfl
  · refine taken_unchanged h hp hk rfl hw (howner.trans ((if_pos hok).trans ?_))
    simp only [hx, if_neg hstate]
    rfl
  · have hdone : retireReply r (s.popped rest) = ((s.popped rest).eraseRecord id).doneReply := by
      rw [howner, if_pos hok, hx]
      exact if_pos hstate
    refine ⟨_, taken_register h hp hk rfl hw hdone, rfl, findBy_eraseBy_same Record.id _ _,
      fun other ho => findBy_eraseBy_other Record.id ho _, ?_⟩
    have hlength := length_eraseBy_of_found (Bool.and_eq_true_iff.1 hcanonical).1 hx
    have hscans : (s.answered r rest (kindByte .retire) .done []).dock = s.dock := rfl
    simp only [State.occupancy, State.setRegister, State.withCustody_custody, State.withCustody_dock, hscans]
    exact (Nat.add_right_comm _ _ _).trans (congrArg (· + _) hlength)

/-! ### SHELVE -/

/-- SHELVE where its form is in order, by the record. -/
theorem shelveReply_eq {r : Request} {id : Ident} {rack slot : Byte} (t : State) (hl : id.length = 10)
    (hr : r.payload = 3 :: (id ++ [rack, slot])) : shelveReply r t =
      if identOk id = true ∧ slot.toNat ≤ 63 then
        match t.find id with
        | none => t.refuse .noSuchRecord
        | some x =>
          match x.st with
          | .shelved _ => (t.putRecord { x with st := .shelved (some ⟨rack.toNat, slot.toNat⟩) }).doneReply
          | .conditioning _ h => (t.putRecord { x with st := .conditioning (some ⟨rack.toNat, slot.toNat⟩) h }).doneReply
          | .suspect _ advised why => (t.putRecord { x with st := .suspect (some ⟨rack.toNat, slot.toNat⟩) advised why }).doneReply
          | .inbound peer carried =>
            if t.peerRoom then (t.completeArrival x peer carried ⟨rack.toNat, slot.toNat⟩).doneReply else t.refuse .queueFull
          | _ => t.refuse .wrongState
      else t.refuse .malformed := by
  have hid : slice (id ++ [rack, slot]) 0 10 = id := slice_append _ _ _ hl
  simp only [shelveReply, requestFields, hr, List.drop_one, List.tail_cons, hid, positionAt_append hl]
  by_cases hok : identOk id = true
  · by_cases hslot : slot.toNat ≤ 63
    · rw [if_pos hslot, hok]
      exact (if_pos ⟨rfl, hslot⟩).symm
    · rw [if_neg hslot, hok]
      exact (if_neg fun h => hslot h.2).symm
  · rw [Bool.eq_false_iff.2 hok]
    exact (if_neg fun h => nomatch h.1).symm

/-- Settles O13. -/
theorem shelvePlacesOrCompletesArrival : Obligations.ShelvePlacesOrCompletesArrival := by
  intro s r rest id rack slot h hp hl hr
  have hk : requestKindOf r.payload = some .shelve := by rw [hr]; rfl
  have hw : layoutWhole .shelve (requestFields r.payload) = true := by simp [hr, requestFields, layoutWhole, hl]
  have howner := shelveReply_eq (s.popped rest) hl hr
  have hfind : (s.popped rest).find id = s.find id := rfl
  rw [hfind] at howner
  refine ⟨fun hbad => ?_, fun hok hslot hnone => ?_, fun x hok hslot hx => ?_⟩
  · refine taken_unchanged h hp hk rfl hw (howner.trans (if_neg ?_))
    rintro ⟨hok, hslot⟩
    rcases hbad with hbad | hbad
    · rw [hok] at hbad
      cases hbad
    · omega
  · refine taken_unchanged h hp hk rfl hw (howner.trans ((if_pos ⟨hok, hslot⟩).trans ?_))
    rw [hnone]
    rfl
  · rw [if_pos ⟨hok, hslot⟩, hx] at howner
    dsimp only at howner
    refine ⟨fun q hq => ?_, fun q hold hq => ?_, fun q hold why hq => ?_, fun peer carried hq hfull => ?_,
      fun peer carried hq hroom => ?_, fun hcode => ?_⟩
    · rw [hq] at howner
      exact taken_register h hp hk rfl hw howner
    · rw [hq] at howner
      exact taken_register h hp hk rfl hw howner
    · rw [hq] at howner
      exact taken_register h hp hk rfl hw howner
    · rw [hq] at howner
      have hno : (s.popped rest).peerRoom = false := decide_eq_false (Nat.not_lt.2 hfull)
      dsimp only at howner
      rw [hno] at howner
      exact taken_unchanged h hp hk rfl hw howner
    · rw [hq] at howner
      have hyes : (s.popped rest).peerRoom = true := decide_eq_true hroom
      dsimp only at howner
      rw [hyes, if_pos rfl] at howner
      refine (taken_reply h .shelve hp hk rfl hw _ howner).trans ?_
      cases carried <;> rfl
    · refine taken_unchanged h hp hk rfl hw (howner.trans ?_)
      rcases x with ⟨_, st, _, _, _⟩
      cases st <;> simp_all [RecState.code] <;> rfl

/-! ### QUERY RECORD -/

/-- The bits of a list of marks, the first lowest. -/
theorem testBit_marks (marks : List Bool) (n : Nat) :
    (marks.foldr (fun (b : Bool) n => 2 * n + if b then 1 else 0) 0).testBit n = marks.getD n false := by
  induction marks generalizing n with
  | nil => simp
  | cons b marks ih =>
    rw [List.foldr_cons]
    cases n with
    | zero => cases b <;> simp [Nat.testBit_zero]
    | succ n =>
      rw [Nat.testBit_succ, List.getD_cons_succ, ← ih n]
      congr 1
      cases b <;> simp
      omega

theorem marks_lt (marks : List Bool) : marks.foldr (fun (b : Bool) n => 2 * n + if b then 1 else 0) 0 < 2 ^ marks.length := by
  induction marks with
  | nil => decide
  | cons b marks ih =>
    rw [List.foldr_cons, List.length_cons, Nat.pow_succ]
    split <;> omega

/-- Four bytes spell the number they were written from. -/
theorem ofBytes4 (k : Nat) (h : k < 4294967296) : ofBytes (toBytes 4 k) = k := by
  simp [toBytes, ofBytes, Nat.shiftRight_eq_div_pow]
  omega

theorem presenceMarks_lt (x : Record) : presenceMarks x < 65536 :=
  Nat.lt_of_lt_of_le (marks_lt _) (by simp)

theorem queryRecordReply_eq {r : Request} {id : Ident} (t : State) (hl : id.length = 10) (hr : r.payload = 4 :: id) :
    queryRecordReply r t =
      if identOk id = true then
        match t.find id with
        | none => t.refuse .noSuchRecord
        | some x => ⟨t, .done, recordBytes x⟩
      else t.refuse .malformed := by
  have hid : slice id 0 10 = id := by rw [slice, List.drop_zero, List.take_of_length_le (Nat.le_of_eq hl)]
  simp only [queryRecordReply, requestFields, hr, List.drop_one, List.tail_cons, hid] <;> rfl

/-- A list of ten bytes, byte by byte. -/
theorem ten_bytes {id : List Byte} (h : id.length = 10) :
    ∃ a b c d e f g i j k : Byte, id = [a, b, c, d, e, f, g, i, j, k] := by
  match id, h with
  | [a, b, c, d, e, f, g, i, j, k], _ => exact ⟨a, b, c, d, e, f, g, i, j, k, rfl⟩

/-- Settles O14: the identifier byte by byte, so that each field of the 44 bytes stands at its place by evaluation. -/
theorem queryRecordAnswersWholeRecord : Obligations.QueryRecordAnswersWholeRecord := by
  intro s r rest id h hp hl hr
  have hk : requestKindOf r.payload = some .queryRecord := by rw [hr]; rfl
  have hw : layoutWhole .queryRecord (requestFields r.payload) = true := by simp [hr, requestFields, layoutWhole, hl]
  have howner := queryRecordReply_eq (s.popped rest) hl hr
  have hfind : (s.popped rest).find id = s.find id := rfl
  rw [hfind] at howner
  refine ⟨fun hbad => ?_, fun hok hnone => ?_, fun x bytes hok hx hbytes => ⟨?_, ?_⟩⟩
  · exact taken_unchanged h hp hk rfl hw (howner.trans (if_neg (by simp [hbad])))
  · refine taken_unchanged h hp hk rfl hw (howner.trans ((if_pos hok).trans ?_))
    rw [hnone]
    rfl
  · refine taken_unchanged h hp hk rfl hw (howner.trans ((if_pos hok).trans ?_))
    rw [hx, hbytes]
  · have hid : x.id = id := findBy_key Record.id hx
    have hmarks := presenceMarks_lt x
    obtain ⟨a, b, c, d, e, f, g, i, j, k, rfl⟩ := ten_bytes hl
    rcases x with ⟨_, st, exposure, logAbsent, minute⟩
    cases hid
    simp only [recordBytes, positionBytes, toBytes, List.cons_append, List.nil_append] at hbytes
    subst hbytes
    refine ⟨rfl, rfl, ?_, ?_, rfl, rfl, rfl, rfl, rfl, rfl, rfl, rfl, ?_, rfl, rfl, rfl, rfl, rfl, ?_, rfl, ?_⟩
    · cases st <;> rfl
    · rintro held rfl n -
      exact (congrArg (Nat.testBit · n) (ofBytes2 _ hmarks)).trans (testBit_marks _ n)
    · cases st with
      | transferring peer restore => rcases restore with ⟨state, position⟩; cases state <;> rfl
      | _ => rfl
    · cases st with
      | suspect position advised reason => cases reason <;> rfl
      | _ => rfl
    · intro hminute
      exact (congrArg ofBytes rfl).trans (ofBytes4 minute hminute)

end Sys2Proof.Machine

namespace Sys2Proof.Machine

/-! ### RELEASE SUSPECT -/

/-- The fields of a RELEASE SUSPECT behind its identifier. -/
theorem releaseOf_append {id : Ident} (d presence rack slot h1 h0 : Byte) (hl : id.length = 10) :
    releaseOf (id ++ [d, presence, rack, slot, h1, h0]) = ⟨id, d.toNat, presence.toNat % 2 == 1, rack.toNat, slot.toNat,
      if presence.toNat / 2 % 2 == 1 then some (256 * h1.toNat + h0.toNat) else none⟩ := by
  have hid : slice (id ++ [d, presence, rack, slot, h1, h0]) 0 10 = id := slice_append _ _ _ hl
  have hb0 : byteAt (id ++ [d, presence, rack, slot, h1, h0]) 10 = d.toNat := byteAt_append id _ 10 0 hl
  have hb1 : byteAt (id ++ [d, presence, rack, slot, h1, h0]) 11 = presence.toNat := byteAt_append id _ 10 1 hl
  have hb2 : byteAt (id ++ [d, presence, rack, slot, h1, h0]) 12 = rack.toNat := byteAt_append id _ 10 2 hl
  have hb3 : byteAt (id ++ [d, presence, rack, slot, h1, h0]) 13 = slot.toNat := byteAt_append id _ 10 3 hl
  have hhold : slice (id ++ [d, presence, rack, slot, h1, h0]) 14 2 = [h1, h0] := by
    rw [slice, List.drop_append, hl]
    simp [List.drop_of_length_le, hl]
  simp only [releaseOf, hid, hb0, hb1, hb2, hb3, hhold]
  simp [ofBytes]

/-- The form of a RELEASE SUSPECT, by its fields (R19). -/
theorem releaseFormOk_append {id : Ident} (d presence rack slot h1 h0 : Byte) (hl : id.length = 10) :
    releaseFormOk (releaseOf (id ++ [d, presence, rack, slot, h1, h0])) = true ↔
      identOk id = true ∧ (d.toNat = 1 ∨ d.toNat = 2 ∨ d.toNat = 3) ∧ (presence.toNat % 2 = 1 → slot.toNat ≤ 63) := by
  rw [releaseOf_append d presence rack slot h1 h0 hl]
  simp [releaseFormOk, imp_iff_not_or, and_assoc, or_assoc]

/-- The rows that take a RELEASE SUSPECT: that of its disposition, or any where it is none of the three (log 17). -/
theorem dispositionFits_append {id : Ident} {n : Nat} (d presence rack slot h1 h0 : Byte) (hl : id.length = 10)
    (h : d.toNat = n ∨ d ≠ 1 ∧ d ≠ 2 ∧ d ≠ 3) : dispositionFits n (id ++ [d, presence, rack, slot, h1, h0]) = true := by
  have hcode (k : Nat) (hk : k < 256) : d ≠ BitVec.ofNat 8 k → d.toNat ≠ k := by
    intro hne hd
    exact hne (BitVec.eq_of_toNat_eq (by simp [hd, Nat.mod_eq_of_lt hk]))
  rw [dispositionFits, releaseOf_append d presence rack slot h1 h0 hl]
  rcases h with h | ⟨hd1, hd2, hd3⟩
  · simp [h]
  · simp [hcode 1 (by decide) hd1, hcode 2 (by decide) hd2, hcode 3 (by decide) hd3]

/-- A RELEASE SUSPECT that stands ready for a row of the given disposition number. -/
structure State.releaseReady (s : State) (r : Request) (rest : List Request) (id : Ident) (d presence rack slot h1 h0 : Byte)
    (n : Nat) : Prop where
  ready : s.ready r rest
  passes : s.passes .releaseSuspect
  length : id.length = 10
  payload : r.payload = 5 :: (id ++ [d, presence, rack, slot, h1, h0])
  row : d.toNat = n ∨ d ≠ 1 ∧ d ≠ 2 ∧ d ≠ 3

namespace State.releaseReady

variable {s : State} {r : Request} {rest : List Request} {id : Ident} {d presence rack slot h1 h0 : Byte} {n : Nat}
  {owner : Request → State → Reply} {go : ReleaseFields → Record → Option Position → Option Nat → Reply}

theorem kind (h : s.releaseReady r rest id d presence rack slot h1 h0 n) : requestKindOf r.payload = some .releaseSuspect := by
  rw [h.payload]
  rfl

theorem fits (h : s.releaseReady r rest id d presence rack slot h1 h0 n) : dispositionFits n (requestFields r.payload) = true := by
  rw [h.payload]
  exact dispositionFits_append d presence rack slot h1 h0 h.length h.row

theorem whole (h : s.releaseReady r rest id d presence rack slot h1 h0 n) :
    layoutWhole .releaseSuspect (requestFields r.payload) = true := by
  simp [h.payload, requestFields, layoutWhole, h.length]

/-- The shared checks of the three dispositions, in their order (R19). -/
theorem checked (h : s.releaseReady r rest id d presence rack slot h1 h0 n) (t : State) :
    releaseChecked r t go =
      if identOk id = true ∧ (d.toNat = 1 ∨ d.toNat = 2 ∨ d.toNat = 3) ∧ (presence.toNat % 2 = 1 → slot.toNat ≤ 63) then
        match t.find id with
        | none => t.refuse .noSuchRecord
        | some x =>
          match x.st with
          | .suspect position advised _ =>
            go (releaseOf (id ++ [d, presence, rack, slot, h1, h0])) x position advised
          | _ => t.refuse .wrongState
      else t.refuse .malformed := by
  have hfields : requestFields r.payload = id ++ [d, presence, rack, slot, h1, h0] := by rw [h.payload]; rfl
  have hid : (releaseOf (id ++ [d, presence, rack, slot, h1, h0])).id = id := by
    rw [releaseOf_append d presence rack slot h1 h0 h.length]
  simp only [releaseChecked, hfields, releaseFormOk_append d presence rack slot h1 h0 h.length, hid] <;> rfl

/-- A row answers MALFORMED where the form is not in order. -/
theorem malformed (h : s.releaseReady r rest id d presence rack slot h1 h0 n)
    (ho : owner r (s.popped rest) = releaseChecked r (s.popped rest) go)
    (hbad : ¬(identOk id = true ∧ (d.toNat = 1 ∨ d.toNat = 2 ∨ d.toNat = 3) ∧ (presence.toNat % 2 = 1 → slot.toNat ≤ 63))) :
    taken s (fun t => t.takeRequest .releaseSuspect (dispositionFits n) owner) = .next (s.answered r rest 5 .malformed []) :=
  taken_unchanged h.ready h.passes h.kind h.fits h.whole ((ho.trans (h.checked _)).trans (if_neg hbad))

/-- A row answers NO SUCH RECORD where no record has the identifier, and WRONG STATE where the record is not SUSPECT. -/
theorem noSuspect (h : s.releaseReady r rest id d presence rack slot h1 h0 n)
    (ho : owner r (s.popped rest) = releaseChecked r (s.popped rest) go)
    (hok : identOk id = true ∧ (d.toNat = 1 ∨ d.toNat = 2 ∨ d.toNat = 3) ∧ (presence.toNat % 2 = 1 → slot.toNat ≤ 63)) :
    (s.find id = none → taken s (fun t => t.takeRequest .releaseSuspect (dispositionFits n) owner) =
      .next (s.answered r rest 5 .noSuchRecord [])) ∧
    ∀ x, s.find id = some x → x.st.code ≠ 6 → taken s (fun t => t.takeRequest .releaseSuspect (dispositionFits n) owner) =
      .next (s.answered r rest 5 .wrongState []) := by
  have hchecked := (ho.trans (h.checked _)).trans (if_pos hok)
  have hfind : (s.popped rest).find id = s.find id := rfl
  rw [hfind] at hchecked
  refine ⟨fun hnone => ?_, fun x hx hcode => ?_⟩
  · rw [hnone] at hchecked
    exact taken_unchanged h.ready h.passes h.kind h.fits h.whole hchecked
  · refine taken_unchanged h.ready h.passes h.kind h.fits h.whole (hchecked.trans ?_)
    rcases x with ⟨_, st, _, _, _⟩
    cases st with
    | suspect position advised reason => exact absurd rfl hcode
    | _ => rw [hx]; rfl

/-- A SUSPECT record goes on with its disposition. -/
theorem suspect (h : s.releaseReady r rest id d presence rack slot h1 h0 n) {x : Record} {held : Option Position}
    {advised : Option Nat} {why : SuspectReason} (ho : owner r (s.popped rest) = releaseChecked r (s.popped rest) go)
    (hok : identOk id = true ∧ (d.toNat = 1 ∨ d.toNat = 2 ∨ d.toNat = 3) ∧ (presence.toNat % 2 = 1 → slot.toNat ≤ 63))
    (hx : s.find id = some x) (hst : x.st = .suspect held advised why) :
    owner r (s.popped rest) = go (releaseOf (id ++ [d, presence, rack, slot, h1, h0])) x held advised := by
  have hfind : (s.popped rest).find id = s.find id := rfl
  rw [ho, h.checked, if_pos hok, hfind, hx]
  simp only [hst]

end State.releaseReady

/-- Settles O15. -/
theorem releaseSuspectByDisposition : Obligations.ReleaseSuspectByDisposition := by
  constructor
  · intro s r rest id d presence rack slot h1 h0 c hready hpasses hl hpresence hr
    have hrow (n : Nat) (hn : d.toNat = n ∨ d ≠ 1 ∧ d ≠ 2 ∧ d ≠ 3) : s.releaseReady r rest id d presence rack slot h1 h0 n :=
      ⟨hready, hpasses, hl, hr, hn⟩
    refine ⟨fun hd1 hd2 hd3 hc => ?_, fun hc => ⟨fun hbad => ?_, fun hok hslot => ?_⟩⟩
    · have hbad : ¬(d.toNat = 1 ∨ d.toNat = 2 ∨ d.toNat = 3) := by
        rintro (hd | hd | hd)
        · exact hd1 (BitVec.eq_of_toNat_eq hd)
        · exact hd2 (BitVec.eq_of_toNat_eq hd)
        · exact hd3 (BitVec.eq_of_toNat_eq hd)
      rcases hc with rfl | rfl | rfl
      · exact (hrow 1 (.inr ⟨hd1, hd2, hd3⟩)).malformed rfl fun h => hbad h.2.1
      · exact (hrow 2 (.inr ⟨hd1, hd2, hd3⟩)).malformed rfl fun h => hbad h.2.1
      · exact (hrow 3 (.inr ⟨hd1, hd2, hd3⟩)).malformed rfl fun h => hbad h.2.1
    · have hform : ¬(identOk id = true ∧ (d.toNat = 1 ∨ d.toNat = 2 ∨ d.toNat = 3) ∧ (presence.toNat % 2 = 1 → slot.toNat ≤ 63)) := by
        rintro ⟨hok, -, hslot⟩
        rcases hbad with hbad | ⟨hodd, hbig⟩
        · rw [hok] at hbad
          cases hbad
        · exact absurd (hslot hodd) (Nat.not_le.2 hbig)
      rcases hc with ⟨rfl, rfl⟩ | ⟨rfl, rfl⟩ | ⟨rfl, rfl⟩
      · exact (hrow 1 (.inl rfl)).malformed rfl hform
      · exact (hrow 2 (.inl rfl)).malformed rfl hform
      · exact (hrow 3 (.inl rfl)).malformed rfl hform
    · rcases hc with ⟨rfl, rfl⟩ | ⟨rfl, rfl⟩ | ⟨rfl, rfl⟩
      · exact (hrow 1 (.inl rfl)).noSuspect rfl ⟨hok, .inl rfl, hslot⟩
      · exact (hrow 2 (.inl rfl)).noSuspect rfl ⟨hok, .inr (.inl rfl), hslot⟩
      · exact (hrow 3 (.inl rfl)).noSuspect rfl ⟨hok, .inr (.inr rfl), hslot⟩
  · intro s r rest id presence rack slot h1 h0 x held advised why hready hpasses hok hpresence hslot hx hst
    have hl := identOk_len hok
    refine ⟨fun hr => ?_, fun hr => ?_, fun hr => ?_⟩
    · have h : s.releaseReady r rest id 1 presence rack slot h1 h0 1 := ⟨hready, hpasses, hl, hr, .inl rfl⟩
      have howner := h.suspect (owner := releaseShelveReply) rfl ⟨hok, .inl rfl, hslot⟩ hx hst
      rw [releaseOf_append 1 presence rack slot h1 h0 hl] at howner
      simp only [beq_iff_eq] at howner
      change taken s (fun t => t.takeRequest .releaseSuspect (dispositionFits 1) releaseShelveReply) = _
      generalize (if presence.toNat % 2 = 1 then some (⟨rack.toNat, slot.toNat⟩ : Position) else held) = place at howner ⊢
      cases place with
      | none => exact taken_unchanged h.ready h.passes h.kind h.fits h.whole howner
      | some p => exact taken_register h.ready h.passes h.kind h.fits h.whole howner
    · have h : s.releaseReady r rest id 2 presence rack slot h1 h0 2 := ⟨hready, hpasses, hl, hr, .inl rfl⟩
      have howner := h.suspect (owner := releaseConditionReply) rfl ⟨hok, .inr (.inl rfl), hslot⟩ hx hst
      rw [releaseOf_append 2 presence rack slot h1 h0 hl] at howner
      have hhold : min (((if presence.toNat / 2 % 2 == 1 then some (256 * h1.toNat + h0.toNat) else none).or advised).getD 0)
          s.cfg.ceiling = min s.cfg.ceiling (if presence.toNat / 2 = 1 then 256 * h1.toNat + h0.toNat else advised.getD 0) := by
        have hbit : presence.toNat / 2 % 2 = presence.toNat / 2 := Nat.mod_eq_of_lt (by omega)
        rw [hbit, Nat.min_comm]
        by_cases hgiven : presence.toNat / 2 = 1 <;> simp [hgiven]
      refine ⟨_, rfl, ?_⟩
      rw [← hhold]
      exact taken_register h.ready h.passes h.kind h.fits h.whole howner
    · have h : s.releaseReady r rest id 3 presence rack slot h1 h0 3 := ⟨hready, hpasses, hl, hr, .inl rfl⟩
      have howner := h.suspect (owner := releaseRemoveReply) rfl ⟨hok, .inr (.inr rfl), hslot⟩ hx hst
      rw [releaseOf_append 3 presence rack slot h1 h0 hl] at howner
      exact taken_register h.ready h.passes h.kind h.fits h.whole howner

end Sys2Proof.Machine

namespace Sys2Proof.Machine

/-! ### The second and the minute -/

theorem minuteStep_of_none {s : State} (h : s.custody.minuteDue = false) : s.minuteStep = s := by
  rw [State.minuteStep, h]
  rfl

/-- The three conditions under which the accumulator runs (R87). -/
theorem conditioningRuns_iff (s : State) : s.conditioningRuns = true ↔
    s.configured = true ∧ s.climate.inBand = true ∧ (s.fire.seq = .quiet ∨ s.fire.seq = .preAlert) := by
  have hseq : (!s.fire.seq.inAlarm) = true ↔ s.fire.seq = .quiet ∨ s.fire.seq = .preAlert := by
    cases s.fire.seq <;> decide
  rw [State.conditioningRuns, Bool.and_eq_true, Bool.and_eq_true, hseq, and_assoc]

/-- Settles O7. -/
theorem secondCountsClockAndAccumulator : Obligations.SecondCountsClockAndAccumulator := by
  intro s u hsettled hminute hu
  have hexec : exec .zoneClockSecond s = .next s.second := by
    change taken s (fun t => t.minuteStep.settle.second) = _
    rw [taken_of_settled hsettled, minuteStep_of_none hminute, settle_of_settled hsettled]
  rw [hexec]
  constructor
  · intro htop
    have hsecond : s.second = if s.conditioningRuns then u.runningSecond else u := by
      rw [State.second, if_pos (show s.custody.zoneClock < clockTop from htop), hu]
      rfl
    rw [hsecond]
    refine ⟨fun hstopped => ?_, fun hconf hband hseq => ⟨fun hwithin => ?_, fun hcompletes => ?_⟩⟩
    · rw [if_neg (fun h => hstopped ((conditioningRuns_iff s).1 h))]
    · rw [if_pos ((conditioningRuns_iff s).2 ⟨hconf, hband, hseq⟩), runningSecond_within (by rw [hu]; exact hwithin), hu]
    · rw [if_pos ((conditioningRuns_iff s).2 ⟨hconf, hband, hseq⟩), runningSecond_completes (by rw [hu]; exact hcompletes)]
  · intro htop
    rw [State.second, if_neg (show ¬s.custody.zoneClock < clockTop from Nat.not_lt.2 htop)]
    rfl

/-- What a minute event adds to the account of a configured zone. -/
theorem chargeExcursion_of_configured {s : State} (h : s.configured = true) {account : Nat}
    (ha : account = saturate (s.climate.account + s.minuteCharge)) : s.chargeExcursion =
      if s.cfg.excursionLimit ≤ account ∧ s.climate.latch = false then
        (s.withClimate { s.climate with account := account, latch := true }).emit (.excursion account s.minute)
      else s.withClimate { s.climate with account := account } := by
  rw [State.chargeExcursion, if_pos h, ha]

/-- The state a minute event charges: lifetimes and limits lowered. -/
def State.minuteLowered (s : State) : State :=
  { s with
    custody := { s.custody with minuteDue := false, manifests := s.custody.manifests.map fun m => m.map lowerLifetime },
    transfer := { s.transfer with entries := s.transfer.entries.map lowerLimit } }

theorem minuteStep_of_due {s : State} (h : s.custody.minuteDue = true) : s.minuteStep = s.minuteLowered.chargeExcursion := by
  rw [State.minuteStep, if_pos h]
  rfl

/-- What the account of a configured zone, the latch and the notices are after a charge. -/
theorem chargeExcursion_spec {s : State} (h : s.configured = true) {account : Nat}
    (ha : account = saturate (s.climate.account + s.minuteCharge)) :
    s.chargeExcursion = { s with climate := s.chargeExcursion.climate, notices := s.chargeExcursion.notices } ∧
      s.chargeExcursion.climate =
        { s.climate with account := account, latch := s.climate.latch || decide (s.cfg.excursionLimit ≤ account) } ∧
      s.chargeExcursion.notices = if s.climate.latch = false ∧ s.cfg.excursionLimit ≤ account then
          (s.emit (.excursion account s.minute)).notices
        else s.notices := by
  rw [chargeExcursion_of_configured h ha]
  by_cases hlimit : s.cfg.excursionLimit ≤ account ∧ s.climate.latch = false
  · rw [if_pos hlimit, if_pos ⟨hlimit.2, hlimit.1⟩]
    refine ⟨?_, ?_, emit_notices_congr _ _ _ rfl rfl rfl⟩
    · obtain ⟨n, hn⟩ : ∃ n, (s.withClimate { s.climate with account := account, latch := true }).emit (.excursion account s.minute) =
        (s.withClimate { s.climate with account := account, latch := true }).withNotices n := ⟨_, emit_withNotices _ _⟩
      rw [hn]
      rfl
    rw [State.emit_climate, decide_eq_true hlimit.1, hlimit.2]
    rfl
  · rw [if_neg hlimit, if_neg (fun k => hlimit ⟨k.2, k.1⟩)]
    refine ⟨rfl, ?_, rfl⟩
    by_cases hreached : s.cfg.excursionLimit ≤ account
    · have hlatch : s.climate.latch = true := Bool.eq_true_of_not_eq_false fun k => hlimit ⟨hreached, k⟩
      have hset : (s.climate.latch || decide (s.cfg.excursionLimit ≤ account)) = s.climate.latch := by rw [hlatch, Bool.true_or]
      rw [State.withClimate_climate, hset]
    · rw [State.withClimate_climate, decide_eq_false hreached, Bool.or_false]

/-- Settles O8. -/
theorem minuteLowersLimitsAndCharges : Obligations.MinuteLowersLimitsAndCharges := by
  intro s hsettled hdue
  have hexec : exec .minuteEvent s = .next s.minuteLowered.chargeExcursion := by
    change taken s State.minuteStep = _
    rw [taken_of_settled hsettled, minuteStep_of_due hdue]
  have hlifetimes : s.custody.manifests.map (fun m => m.map lowerLifetime) = s.custody.manifests.map fun m =>
      m.map fun x => if x.state = .waiting then { x with lifetime := x.lifetime - 1 } else x := by
    congr 2
    funext m
    congr 1
    funext x
    rcases x with ⟨state, _, _⟩
    cases state <;> rfl
  have hframe (t : State) (ht : t = { s.minuteLowered with climate := t.climate, notices := t.notices }) :
      t = { s with custody := t.custody, transfer := t.transfer, climate := t.climate, notices := t.notices } ∧
        t.custody = s.minuteLowered.custody ∧ t.transfer = s.minuteLowered.transfer := by
    rw [ht]
    exact ⟨rfl, rfl, rfl⟩
  rw [hexec]
  by_cases hconf : s.configured = true
  · obtain ⟨hshape, hclimate, hnotices⟩ := chargeExcursion_spec (s := s.minuteLowered) hconf rfl
    obtain ⟨h, hcustody, htransfer⟩ := hframe _ hshape
    refine ⟨_, rfl, h, hcustody.trans ?_, htransfer.trans rfl, fun hno => ?_, fun _ => ⟨_, ?_, hclimate, ?_⟩⟩
    · exact congrArg (fun l => { s.custody with minuteDue := false, manifests := l }) hlifetimes
    · rw [hconf] at hno
      cases hno
    · exact Nat.min_comm _ _
    · rw [hnotices]
      congr 1
      exact emit_notices_congr _ _ _ rfl rfl rfl
  · have hsame : s.minuteLowered.chargeExcursion = s.minuteLowered := if_neg hconf
    rw [hsame]
    obtain ⟨h, hcustody, htransfer⟩ := hframe s.minuteLowered rfl
    refine ⟨_, rfl, h, hcustody.trans ?_, htransfer.trans rfl, fun _ => ⟨rfl, rfl⟩, fun hyes => absurd hyes hconf⟩
    · exact congrArg (fun l => { s.custody with minuteDue := false, manifests := l }) hlifetimes

end Sys2Proof.Machine

namespace Sys2Proof.Machine

/-! ### Offers that end -/

/-- A TRANSFERRING record goes back to its prior state (R7). -/
theorem restoreRecord_of_transferring {s : State} {id : Ident} {x : Record} {peer : PeerField} {restore : Restore}
    (hx : s.find id = some x) (hst : x.st = .transferring peer restore) :
    s.restoreRecord id = s.putRecord (x.enter (restore.back s.cfg.ceiling) s.minute) := by
  simp only [State.restoreRecord, hx, hst]

/-- A record that is not TRANSFERRING, or none, is left alone. -/
theorem restoreRecord_of_other {s : State} {id : Ident} (h : ∀ x, s.find id = some x → x.st.code ≠ 7) : s.restoreRecord id = s := by
  unfold State.restoreRecord
  split
  · rfl
  · rename_i x hx
    split
    · rename_i hst
      exact absurd (by rw [hst]; rfl) (h x hx)
    · rfl

/-- The restore field's state, written out. -/
theorem restore_back (ceiling : Nat) (restore : Restore) : restore.back ceiling = match restore.state with
    | .shelved => .shelved restore.position
    | .conditioning h => .conditioning restore.position (min h ceiling) := rfl

/-- The end of an offer that keeps the cartridge, with the outcome's event written out (R150, R160). -/
theorem keepCartridge_eq (s : State) (e : TransferEntry) (o : TransferOutcome) (r : Option Byte) {kept : State}
    (h : s.restoreRecord e.id = kept) :
    s.keepCartridge e o r = (kept.eraseEntry e.id).emit (.transferOutcome e.id e.direction e.peer e.number o r s.minute) := by
  have hminute : kept.minute = s.minute := by
    rw [← h]
    exact (restoreRecord_rest s e.id).2.1
  rw [State.keepCartridge, h, ← hminute]
  rfl

theorem direction_of_offered {e : TransferEntry} {wait : Option Nat} (h : e.state = .offered wait) : e.direction = .out := by
  rw [TransferEntry.direction, h]

theorem isOffered_iff (e : TransferEntry) : e.isOffered = true ↔ ∃ wait, e.state = .offered wait := by
  unfold TransferEntry.isOffered
  split <;> rename_i h <;> simp [h]

/-- The fields of a DECLINE behind its identifier. -/
theorem declineOf_append {id : Ident} {n reason : Byte} (h : identOk id = true) :
    declineOf (id ++ [n, reason]) = some (id, n.toNat, reason) := by
  have hl := identOk_len h
  have hid : slice (id ++ [n, reason]) 0 10 = id := slice_append _ _ _ hl
  have hn : byteAt (id ++ [n, reason]) 10 = n.toNat := byteAt_append id _ 10 0 hl
  have hreason : (id ++ [n, reason]).getD 11 0 = reason := by simp [List.getD_eq_getElem?_getD, hl]
  rw [declineOf, hid, hn, hreason, if_pos ⟨by simp [hl], h⟩]

/-- A DECLINE that stands ready: it ends the OFFERED entry it matches, and is discarded otherwise (R150, R153). -/
theorem exec_decline {s : State} {m : PeerIn} {rest : List PeerIn} {id : Ident} {n reason : Byte} (h : s.peerReady m rest)
    (hk : m.kind = .decline) (hd : m.dest ≤ 15) (hid : identOk id = true) (hp : m.payload = id ++ [n, reason]) :
    exec .decline s = .next (match s.entry id with
      | none => s.peerTaken rest
      | some e =>
        if e.isOffered = true ∧ e.peer = m.sender ∧ e.number = n.toNat then
          (s.peerTaken rest).keepCartridge e .declined (some reason)
        else s.peerTaken rest) := by
  have hentry : (s.peerTaken rest).entry id = s.entry id := rfl
  refine (taken_peer h hk hd).trans ?_
  rw [takeDecline, hp, declineOf_append hid]
  simp only [State.matching, hentry]
  cases s.entry id with
  | none => rfl
  | some e =>
    dsimp only
    congr 1
    by_cases hoffered : e.isOffered = true
    · obtain ⟨wait, hwait⟩ := (isOffered_iff e).1 hoffered
      by_cases hsame : e.peer = m.sender ∧ e.number = n.toNat
      · rw [if_pos ⟨direction_of_offered hwait, hsame⟩, if_pos ⟨hoffered, hsame⟩]
        exact if_pos hoffered
      · rw [if_neg (fun k => hsame k.2), if_neg (fun k => hsame k.2)]
    · rw [if_neg (fun k : e.isOffered = true ∧ _ => hoffered k.1)]
      by_cases hsame : e.direction = .out ∧ e.peer = m.sender ∧ e.number = n.toNat
      · rw [if_pos hsame]
        exact if_neg hoffered
      · rw [if_neg hsame]

/-- Settles O39. -/
theorem endedOfferKeepsTheCartridge : Obligations.EndedOfferKeepsTheCartridge := by
  constructor
  · intro s x e peer restore wait back hsettled he hstate hx hst hback
    have hdirection := direction_of_offered hstate
    have hkept (t : State) (ht : t.find e.id = some x) (hc : t.cfg = s.cfg) (hm : t.minute = s.minute) :
        t.restoreRecord e.id = t.putRecord { x with st := back, stateMinute := s.minute } := by
      rw [restoreRecord_of_transferring ht hst, hback, restore_back, hc, hm]
      rfl
    refine ⟨fun hwait => ?_, fun m rest reason h hk hd hid hp hn => ?_⟩
    · obtain ⟨w, rfl⟩ := Option.isSome_iff_exists.1 hwait
      change taken s (fun t => t.offerWaitEnds e.id) = _
      rw [taken_of_settled hsettled]
      simp only [State.offerWaitEnds, he, hstate]
      rw [keepCartridge_eq s e _ _ (hkept s hx rfl rfl), hdirection]
    · have hdecline := exec_decline h hk hd hid hp
      have hnumber : (BitVec.ofNat 8 e.number).toNat = e.number := by simp [Nat.mod_eq_of_lt hn]
      rw [he, hnumber] at hdecline
      refine ⟨fun hsender => hdecline.trans ?_, fun hsender => hdecline.trans ?_⟩
      · dsimp only
        rw [if_pos ⟨(isOffered_iff e).2 ⟨wait, hstate⟩, hsender.symm, rfl⟩, keepCartridge_eq (s.peerTaken rest) e _ _ (hkept _ hx rfl rfl), hdirection]
        rfl
      · dsimp only
        rw [if_neg (fun k => hsender k.2.1.symm)]
  · intro s m rest id n reason h hk hd hid hp hlate
    rw [exec_decline h hk hd hid hp]
    cases he : s.entry id with
    | none => rfl
    | some e =>
      dsimp only
      rw [if_neg]
      rintro ⟨hoffered, hpeer, hnumber⟩
      obtain ⟨wait, hwait⟩ := (isOffered_iff e).1 hoffered
      rcases hlate e he with h1 | h1 | h1
      · exact h1 hpeer
      · exact h1 hnumber
      · exact h1 wait hwait

/-! ### Outcomes of sending -/

theorem entryNumbered_of_entry {s : State} {id : Ident} {e : TransferEntry} (h : s.entry id = some e) :
    s.entryNumbered id e.number = some e := by
  simp [State.entryNumbered, h]

/-- An OFFER's outcome is discarded but for an entry under its number whose wait has not started (R148, log 48). -/
theorem offerOutcome_discarded {s : State} {id : Ident} {n : Nat} (o : SendOutcome)
    (h : ∀ e, s.entry id = some e → e.number ≠ n ∨ e.state ≠ .offered none) : s.offerOutcome id n o = s := by
  unfold State.offerOutcome
  cases he : s.entry id with
  | none => simp [State.entryNumbered, he]
  | some e =>
    by_cases hn : e.number = n
    · subst hn
      rw [entryNumbered_of_entry he]
      have hstate := (h e he).resolve_left fun k => k rfl
      dsimp only
      split <;> simp_all
    · simp [State.entryNumbered, he, hn]

/-- The entry that a TAKE's outcome reaches: the IN entry under the same peer and number. -/
theorem matching_of_entry {s : State} {id : Ident} {dest n : Nat} {e : TransferEntry} {d : Direction} (h : s.entry id = some e)
    (hd : e.direction = d) (hp : e.peer = dest) (hn : e.number = n) : s.matching d dest n id = some e := by
  simp [State.matching, h, hd, hp, hn]

theorem matching_eq_none {s : State} {id : Ident} {dest n : Nat} {d : Direction}
    (h : ∀ e, s.entry id = some e → e.direction ≠ d ∨ e.peer ≠ dest ∨ e.number ≠ n) : s.matching d dest n id = none := by
  unfold State.matching
  cases he : s.entry id with
  | none => rfl
  | some e =>
    refine if_neg ?_
    rintro ⟨hd, hp, hn⟩
    rcases h e he with h1 | h1 | h1
    · exact h1 hd
    · exact h1 hp
    · exact h1 hn

/-- Settles O42. -/
theorem offerOutcomeStartsOrEndsTheOffer : Obligations.OfferOutcomeStartsOrEndsTheOffer := by
  refine ⟨fun s e hold exposure he hstate => ?_, fun s id dest n hold exposure o h => offerOutcome_discarded o h,
    fun s id dest n reason o => ⟨fun ho => ⟨fun limit he => ?_, fun h => ?_, ?_⟩, rfl, rfl, by cases o <;> rfl, by cases o <;> rfl⟩⟩
  · have hdirection := direction_of_offered hstate
    have houtcome (o : SendOutcome) : s.peerOutcome ⟨e.peer, .offer e.id e.number hold exposure⟩ o = match o with
        | .accepted => s.putEntry { e with state := .offered (some (s.now + 1000 * s.cfg.offerWait)) }
        | .refused => s.keepCartridge e .declined (some 5)
        | .unanswered => s.keepCartridge e .noAnswer none := by
      change s.offerOutcome e.id e.number o = _
      rw [State.offerOutcome, entryNumbered_of_entry he]
      dsimp only
      rw [hstate]
      cases o <;> rfl
    refine ⟨houtcome .accepted, fun kept hkept => ?_⟩
    have hrestored : s.restoreRecord e.id = kept := by
      rcases hkept with ⟨x, peer, restore, hx, hst, rfl⟩ | ⟨hother, rfl⟩
      · rw [restoreRecord_of_transferring hx hst, restore_back]
        rfl
      · exact restoreRecord_of_other hother
    rw [houtcome .refused, houtcome .unanswered]
    dsimp only
    rw [keepCartridge_eq s e _ _ hrestored, keepCartridge_eq s e _ _ hrestored, hdirection]
    exact ⟨rfl, rfl⟩
  · have htake : s.peerOutcome ⟨dest, .take id n⟩ o = s.takeUndelivered id dest n := by cases o <;> simp_all [State.peerOutcome]
    rw [htake, State.takeUndelivered, matching_of_entry (d := .in_) (dest := dest) (n := n) he rfl rfl rfl]
    rfl
  · have htake : s.peerOutcome ⟨dest, .take id n⟩ o = s.takeUndelivered id dest n := by cases o <;> simp_all [State.peerOutcome]
    rw [htake, State.takeUndelivered, matching_eq_none]
    intro e he
    rcases h e he with h1 | h1 | h1
    · exact .inr (.inl h1)
    · exact .inr (.inr h1)
    · exact .inl (by rw [h1]; decide)
  · cases o with
    | accepted => exact absurd rfl ho
    | refused => rfl
    | unanswered => rfl

end Sys2Proof.Machine

namespace Sys2Proof.Machine

/-! ### An evaluation that ends nothing -/

/-- An entry to confirmation with no session and no offer to end is the change of the sequence state. -/
theorem enterConfirmation_eq_enterSeq {u : State} (hd : u.dock.session.beforeCommit = false)
    (he : ∀ e ∈ u.transfer.entries, e.isOffered = false) : ∃ c, u.enterConfirmation =
      u.enterSeq (if u.fire.holdOn || u.fire.isolateOn then .confirmed else .preDischarge) c := by
  refine ⟨if u.confirmationCondition then .confirmation else .manualCall, ?_⟩
  have hsession (v : State) (hv : v.dock = u.dock) : v.fireEndsSession = v := if_neg (by simp [hv, hd])
  have hoffers (v : State) (hv : v.transfer = u.transfer) : v.withdrawOffers = v := by
    have hnone : v.transfer.entries.filter TransferEntry.isOffered = [] := by
      rw [hv, List.filter_eq_nil_iff]
      intro e hmem
      simp [he e hmem]
    rw [State.withdrawOffers, hnone]
    rfl
  rw [State.enterConfirmation, hsession _ (State.enterSeq_dock _ _ _), hoffers _ (State.enterSeq_transfer _ _ _)]

/-- An evaluation with no session and no offer to end changes nothing or changes the sequence state alone. -/
theorem evaluate_plain {u : State} (hd : u.dock.session.beforeCommit = false)
    (he : ∀ e ∈ u.transfer.entries, e.isOffered = false) :
    (u.evaluatedSeq = u.fire.seq ∧ u.evaluate = u) ∨ u.evaluatedSeq ≠ u.fire.seq ∧ ∃ c, u.evaluate = u.enterSeq u.evaluatedSeq c := by
  rcases evaluate_cases u with h | ⟨c, _, hne, h⟩ | ⟨hlt, hq, h⟩
  · exact .inl h
  · exact .inr ⟨hne, c, h⟩
  · obtain ⟨c, hc⟩ := enterConfirmation_eq_enterSeq hd he
    refine .inr ⟨fun hsame => ?_, c, by rw [h, hq, hc]⟩
    rw [← hsame, hq] at hlt
    split at hlt <;> simp [seqCode] at hlt

/-! ### The survey of a station just reset -/

/-- A station whose blocks have been reset, before its survey: the fire unit cold, no session, no transfer entry, the outputs OFF. -/
structure State.IsReset (c : State) : Prop where
  fire : c.fire = coldFire c.pins
  dock : c.dock.session.beforeCommit = false
  entries : c.transfer.entries = []
  humidify : c.climate.humidify.on = false
  dehumidify : c.climate.dehumidify.on = false

/-- The fire unit that a survey leaves of a cold one, in the sequence state given (R139 to R141). -/
def surveyedFire (p : Pins) (now : Nat) (cfg : ConfigRecord) (q : Seq) : FireUnit :=
  { coldFire p with
    callLatch := p.callOperated, seq := q, countdown := if q = .preDischarge then some (now + 1000 * cfg.preDischarge) else none,
    sounder := sounderFor q false, damperClosed := damperFor q false }

/-- The state with its inputs recorded, before the evaluation of a survey. -/
def State.recorded (c : State) : State := { c with fire := { coldFire c.pins with callLatch := c.pins.callOperated } }

/-- A change of the sequence state from QUIET, as the survey finds it: the fire unit, and the outputs, which are OFF already. -/
theorem enterSeq_of_quiet {u : State} {p : Pins} (hf : u.fire = { coldFire p with callLatch := p.callOperated })
    (hh : u.climate.humidify.on = false) (hd : u.climate.dehumidify.on = false) {q : Seq} (c : FireCause)
    (hq : q ≠ .discharge ∧ q ≠ .soak) : (u.enterSeq q c).fire = surveyedFire p u.now u.cfg q ∧ (u.enterSeq q c).climate = u.climate := by
  constructor
  · rw [enterSeq_fire, hf, decide_eq_false hq.1, if_neg hq.1, if_neg hq.2]
    rfl
  · rw [enterSeq_climate, State.climateForcedIn, hh, hd]
    simp

/-- An evaluation gives neither DISCHARGE nor SOAK where the sequence stands in neither. -/
theorem evaluatedSeq_early {u : State} (h : seqCode u.fire.seq < 3) : u.evaluatedSeq ≠ .discharge ∧ u.evaluatedSeq ≠ .soak := by
  unfold State.evaluatedSeq
  rw [if_neg (Nat.not_le.2 h)]
  split
  · split <;> simp
  · split
    · simp
    · split
      · simp
      · split
        · simp
        · cases hq : u.fire.seq <;> simp_all [seqCode]

/-- All that the survey of a station just reset does: the fire unit as its evaluation gives it, the fault notices, and a FIRE STATE notice
where the sequence leaves QUIET (R139). -/
theorem inputSurvey_spec {c : State} (h : c.IsReset) {q : Seq} (hq : q = c.recorded.evaluatedSeq) :
    c.inputSurvey = { c with fire := c.inputSurvey.fire, notices := c.inputSurvey.notices } ∧
      c.inputSurvey.fire = surveyedFire c.pins c.now c.cfg q ∧
      (∀ n, n ≠ 0 → n ≠ 2 → c.inputSurvey.pendingNotice n = c.pendingNotice n) ∧
      (q = .quiet → c.inputSurvey.pendingNotice 0 = c.pendingNotice 0) ∧
      (q = .quiet → c.recorded.faultChannels = [] → c.inputSurvey.notices = c.notices) := by
  have hrecorded : c.withFire (c.fire.surveyed c.pins) = c.recorded := by
    rw [h.fire]
    rfl
  obtain ⟨faults, hfaults⟩ : ∃ l, l = c.recorded.faultChannels.map c.recorded.faultEvent := ⟨_, rfl⟩
  have hsurvey : c.inputSurvey = (c.recorded.emitAll faults).evaluate := by rw [inputSurvey_eq c _ rfl, hrecorded, hfaults]
  have hsource : ∀ e ∈ faults, e.source = 2 := by
    intro e he
    rw [hfaults] at he
    obtain ⟨k, _, rfl⟩ := List.mem_map.1 he
    rfl
  have hemitted := emitAll_withNotices c.recorded faults
  obtain ⟨n, hn⟩ : ∃ n, n = (c.recorded.emitAll faults).notices := ⟨_, rfl⟩
  have hother (k : Nat) (hk : k ≠ 2) : (c.recorded.withNotices n).pendingNotice k = c.pendingNotice k := by
    rw [hn, ← hemitted, emitAll_pendingNotice_other _ _ _ fun e he => by rw [hsource e he]; exact hk]
    rfl
  have hnofaults : c.recorded.faultChannels = [] → n = c.notices := by
    intro hnone
    rw [hn, hfaults, hnone]
    rfl
  rw [← hn] at hemitted
  rw [hsurvey, hemitted]
  have hquiet : (c.recorded.withNotices n).fire.seq = .quiet := rfl
  have hseq : (c.recorded.withNotices n).evaluatedSeq = q := hq.symm
  have hnone : ∀ e ∈ (c.recorded.withNotices n).transfer.entries, e.isOffered = false := by
    intro e he
    have hempty : c.transfer.entries = [] := h.entries
    rw [show (c.recorded.withNotices n).transfer.entries = c.transfer.entries from rfl, hempty] at he
    cases he
  rcases evaluate_plain (u := c.recorded.withNotices n) h.dock hnone with ⟨hsame, he⟩ | ⟨hne, cause, he⟩
  · rw [hseq, hquiet] at hsame
    rw [he, hsame]
    refine ⟨rfl, rfl, fun k _ hk => hother k hk, fun _ => hother 0 (by decide), fun _ hnof => hnofaults hnof⟩
  · have hearly := evaluatedSeq_early (u := c.recorded.withNotices n) (by rw [hquiet]; decide)
    rw [hseq] at hearly hne he
    rw [hquiet] at hne
    obtain ⟨hfire, hclimate⟩ := enterSeq_of_quiet (u := c.recorded.withNotices n) (p := c.pins) rfl h.humidify h.dehumidify cause hearly
    have hframe := enterSeq_afterSequence (c.recorded.withNotices n) q cause
    have hnotices (k : Nat) (hk : k ≠ 0) : ((c.recorded.withNotices n).enterSeq q cause).pendingNotice k =
        (c.recorded.withNotices n).pendingNotice k := by
      rw [enterSeq_spec]
      exact emit_pendingNotice_other _ _ k hk
    rw [he]
    refine ⟨?_, hfire, fun k hk hk' => (hnotices k hk).trans (hother k hk'), fun hcontra => absurd hcontra hne,
      fun hcontra => absurd hcontra hne⟩
    have hclimate' : (c.recorded.withNotices n).afterSequence ((c.recorded.withNotices n).enterSeq q cause) =
        { c with fire := ((c.recorded.withNotices n).enterSeq q cause).fire,
                 notices := ((c.recorded.withNotices n).enterSeq q cause).notices } := by
      rw [State.afterSequence, hclimate]
      rfl
    exact hframe.trans hclimate'

/-! ### Cold start -/

theorem isReset_cold (pins : Pins) (now free : Nat) (pending : List Instr) : (State.cold pins now free pending).IsReset :=
  ⟨rfl, rfl, rfl, rfl, rfl⟩

/-- With every channel NORMAL no fire condition holds. -/
theorem conditions_of_normal {u : State} (h : ∀ x ∈ u.fire.channels, x = .normal) :
    u.confirmationCondition = false ∧ u.alarmCondition = false ∧ u.alertCondition = false ∧ u.faultChannels = [] := by
  have hchannel (k : Nat) : u.channel k = .normal := by
    rw [State.channel, List.getD_eq_getElem?_getD]
    cases hk : u.fire.channels[k]? with
    | none => rfl
    | some x => exact h x (List.mem_of_getElem? hk)
  have halarms : u.alarmChannels = [] := by simp [State.alarmChannels, hchannel]
  refine ⟨?_, ?_, ?_, ?_⟩
  · have hgroup (g : Group) : u.groupAlarms g = 0 := by simp [State.groupAlarms, halarms]
    unfold State.confirmationCondition
    split <;> simp [hgroup]
  · simp [State.alarmCondition, halarms]
  · simp [State.alertCondition, hchannel]
  · simp [State.faultChannels, hchannel]

theorem evaluatedSeq_of_normal {u : State} (h : ∀ x ∈ u.fire.channels, x = .normal) (hl : u.fire.callLatch = false)
    (hq : u.fire.seq = .quiet) : u.evaluatedSeq = .quiet := by
  obtain ⟨hconfirmation, halarm, halert, _⟩ := conditions_of_normal h
  simp [State.evaluatedSeq, hconfirmation, halarm, halert, hl, hq, seqCode]

/-- Settles O4. -/
theorem coldStartEmptiesEveryBlock : Obligations.ColdStartEmptiesEveryBlock := by
  intro s q hq
  obtain ⟨hframe, hfire, _, _, hquiet⟩ := inputSurvey_spec (isReset_cold s.pins 0 s.free s.pending) (q := q) hq
  have hcoldfire : surveyedFire s.pins 0 (State.cold s.pins 0 s.free s.pending).cfg q = { coldFire s.pins with
      callLatch := s.pins.callOperated, seq := q, countdown := if q = .preDischarge then some 30000 else none,
      sounder := sounderFor q false, damperClosed := damperFor q false } := by
    have hlength : (State.cold s.pins 0 s.free s.pending).cfg.preDischarge = 30 := rfl
    simp only [surveyedFire, hlength, Nat.zero_add]
  refine ⟨(State.cold s.pins 0 s.free s.pending).inputSurvey, rfl, hframe, ?_⟩
  have hfields := hfire.trans hcoldfire
  have hnormal : (∀ x ∈ s.pins.channels, x = .normal) → s.pins.callOperated = false →
      (State.cold s.pins 0 s.free s.pending).inputSurvey.fire = coldFire s.pins ∧
        (State.cold s.pins 0 s.free s.pending).inputSurvey.fire.seq = .quiet ∧
        (State.cold s.pins 0 s.free s.pending).inputSurvey.notices.pending = List.replicate 16 none := by
    intro hchannels hcall
    have hq' : q = .quiet := hq.trans (evaluatedSeq_of_normal hchannels hcall rfl)
    rw [hfields, hquiet hq' (conditions_of_normal (u := (State.cold s.pins 0 s.free s.pending).recorded) hchannels).2.2.2, hq', hcall]
    exact ⟨rfl, rfl, rfl⟩
  exact ⟨congrArg State.custody hframe, congrArg State.request hframe, congrArg State.transfer hframe,
    congrArg (·.line.address) hframe, congrArg (·.line.aligned) hframe, congrArg (·.line.cycle) hframe, congrArg State.dock hframe,
    congrArg FireUnit.channels hfields, congrArg FireUnit.callOperated hfields, congrArg FireUnit.callLatch hfields,
    congrArg FireUnit.holdOn hfields, congrArg FireUnit.isolateOn hfields, congrArg FireUnit.doorOpen hfields,
    congrArg FireUnit.agentReady hfields, hfields, hnormal⟩

/-! ### Warm reset -/

/-- A station cleared by a warm reset, with its RESTART recorded. -/
theorem isReset_warm (s : State) (n : NoticeUnit) : (s.warmCleared.withNotices n).IsReset := ⟨rfl, rfl, rfl, rfl, rfl⟩

/-- A record normalised, by its state (R23). -/
theorem normaliseRecord_eq (entries : List TransferEntry) (ceiling minute : Nat) (r : Record) :
    normaliseRecord entries ceiling minute r = match r.st with
      | .reserved p _ => some { r with st := .shelved (some p), stateMinute := minute }
      | .loading p _ => some { r with st := .shelved (some p), stateMinute := minute }
      | .returning f => some { r with st := .out f, stateMinute := minute }
      | .transferring _ restore =>
        if takenEntry entries r.id then some { r with st := .suspect none restore.hold .transferInterrupted, stateMinute := minute }
        else some { r with st := restore.back ceiling, stateMinute := minute }
      | .inbound _ _ => none
      | _ => some r := by
  rcases r with ⟨_, st, _, _, _⟩
  cases st <;> rfl

/-- The commands that bring a warm reset about, on a settled state. -/
theorem exec_warmReset {s : State} {c : Instr} {cause : ResetCause} (hsettled : s.settled = true)
    (h : c = .warmReset ∧ cause = .resetInput ∨ c = .resetAnswerTimeout ∧ s.request.resetWait.isSome ∧ cause = .resetRequest) :
    exec c s = .next (s.warmReset cause) := by
  rcases h with ⟨rfl, rfl⟩ | ⟨rfl, hwait, rfl⟩
  · change taken s (fun t => t.warmReset .resetInput) = _
    rw [taken_of_settled hsettled]
  · obtain ⟨w, hw⟩ := Option.isSome_iff_exists.1 hwait
    change taken s State.requestedReset = _
    rw [taken_of_settled hsettled, State.requestedReset, hw]

/-- No notice is pending after the clearing of a warm reset. -/
theorem warmCleared_pendingNotice (s : State) (n : Nat) : s.warmCleared.pendingNotice n = none := by
  have hempty : s.warmCleared.notices.pending = List.replicate 16 none := rfl
  rw [State.pendingNotice, hempty, List.getElem?_replicate]
  split <;> rfl

/-- Settles O5. -/
theorem warmResetNormalisesAndKeeps : Obligations.WarmResetNormalisesAndKeeps := by
  intro s c cause q hsettled hc hq
  obtain ⟨restart, hrestart⟩ : ∃ e, e = s.restartEvent cause := ⟨_, rfl⟩
  have hsource : restart.source = 15 := by rw [hrestart]; rfl
  obtain ⟨n, hn⟩ : ∃ n, n = (s.warmCleared.emit restart).notices := ⟨_, rfl⟩
  have hemitted : s.warmCleared.emit restart = s.warmCleared.withNotices n := hn ▸ emit_withNotices _ _
  have hreset : s.warmReset cause = (s.warmCleared.withNotices n).inputSurvey := by rw [State.warmReset, ← hrestart, hemitted]
  have hother (k : Nat) (hk : k ≠ 15) : (s.warmCleared.withNotices n).pendingNotice k = none := by
    rw [← hemitted, emit_pendingNotice_other _ _ _ (by rw [hsource]; exact hk), warmCleared_pendingNotice]
  obtain ⟨hframe, hfire, hnotices, hquiet, _⟩ := inputSurvey_spec (isReset_warm s n) (q := q) hq
  refine ⟨(s.warmCleared.withNotices n).inputSurvey, (exec_warmReset hsettled hc).trans (by rw [hreset]), ?_⟩
  refine ⟨congrArg State.request hframe, ?_, congrArg State.dock hframe, congrArg State.conditioning hframe,
    congrArg State.transfer hframe, ?_, fun k => ?_, congrArg State.line hframe, (congrArg State.pins hframe).trans rfl,
    (congrArg State.now hframe).trans rfl, (congrArg State.free hframe).trans rfl, (congrArg State.pending hframe).trans rfl, hfire, fun hq' => ?_,
    fun hrecords => ?_, fun k h0 h2 h15 => ?_⟩
  · have hregister : s.normalised.register = s.custody.register.filterMap fun r =>
        match r.st with
        | .reserved p _ => some { r with st := .shelved (some p), stateMinute := s.minute }
        | .loading p _ => some { r with st := .shelved (some p), stateMinute := s.minute }
        | .returning f => some { r with st := .out f, stateMinute := s.minute }
        | .transferring _ restore =>
          if takenEntry s.transfer.entries r.id then
            some { r with st := .suspect none restore.hold .transferInterrupted, stateMinute := s.minute }
          else some { r with st := restore.back s.cfg.ceiling, stateMinute := s.minute }
        | .inbound _ _ => none
        | _ => some r :=
      congrArg (List.filterMap · s.custody.register) (funext (normaliseRecord_eq s.transfer.entries s.cfg.ceiling s.minute))
    rw [hframe]
    exact congrArg (fun l => { s.custody with manifests := [none, none, none, none], register := l }) hregister
  · rw [hframe]; rfl
  · have hlate : (s.warmCleared.withNotices n).inputSurvey.climate.late =
        (s.climate.round.map (·.asked)).toList ++ s.climate.late := by rw [hframe]; rfl
    rw [hlate]
    simp only [List.mem_append, Option.mem_toList, Option.map_eq_some_iff]
    exact or_comm
  · exact (hquiet hq').trans (hother 0 (by decide))
  · have hself := emit_pendingNotice_self s.warmCleared restart rfl (by rw [hsource]; exact hrecords)
    rw [hsource, hemitted, warmCleared_pendingNotice] at hself
    rw [hnotices 15 (by decide) (by decide), hself, hrestart]
    rfl
  · exact (hnotices k h0 h2).trans (hother k h15)

end Sys2Proof.Machine

namespace Sys2Proof.Machine

/-! ### A list worked off -/

/-- A step that shortens a list, repeated as often as the list is long, leaves it empty. -/
theorem repeatStep_drains {α : Type} {f : State → State} {g : State → List α} (h : ∀ s, (g (f s)).length ≤ (g s).length - 1)
    (n : Nat) (s : State) (hn : (g s).length ≤ n) : g (repeatStep f n s) = [] := by
  induction n generalizing s with
  | zero => exact List.length_eq_zero_iff.1 (Nat.le_zero.1 hn)
  | succ n ih =>
    refine ih (f s) ?_
    have := h s
    omega

/-- What a step keeps, its repetition keeps. -/
theorem repeatStep_invariant {P : State → Prop} {f : State → State} (h : ∀ s, P s → P (f s)) (n : Nat) {s : State} (hs : P s) :
    P (repeatStep f n s) := by
  induction n generalizing s with
  | zero => exact hs
  | succ n ih => exact ih (h s hs)

theorem length_filter_ne_lt {α : Type} [DecidableEq α] {l : List α} {x : α} (h : x ∈ l) :
    (l.filter fun y => decide (y ≠ x)).length ≤ l.length - 1 := by
  have hlt : (l.filter fun y => decide (y ≠ x)).length < l.length :=
    List.length_filter_lt_length_iff_exists.2 ⟨x, h, by simp⟩
  omega

/-! ### Expired manifests -/

/-- The first expired manifest: its place holds it, it has expired, and freeing its entry leaves the other expired ones. -/
theorem expiredFrom_cons {base n : Nat} {rest : List Nat} {l : List (Option Manifest)} (h : expiredFrom base l = n :: rest) :
    base ≤ n ∧ (∃ m, l[n - base]? = some (some m) ∧ m.expired = true) ∧ expiredFrom base (l.set (n - base) none) = rest := by
  induction l generalizing base with
  | nil => cases h
  | cons x l ih =>
    have hlater (k : expiredFrom (base + 1) l = n :: rest) :
        base ≤ n ∧ (∃ m, (x :: l)[n - base]? = some (some m) ∧ m.expired = true) ∧ (x :: l).set (n - base) none = x :: l.set (n - (base + 1)) none ∧
          expiredFrom (base + 1) (l.set (n - (base + 1)) none) = rest := by
      obtain ⟨hle, ⟨m, hm, hexpired⟩, hrest⟩ := ih k
      have hplace : n - base = (n - (base + 1)) + 1 := by omega
      refine ⟨by omega, ⟨m, ?_, hexpired⟩, ?_, hrest⟩
      · rw [hplace, List.getElem?_cons_succ, hm]
      · rw [hplace, List.set_cons_succ]
    cases x with
    | none =>
      obtain ⟨hle, hm, hset, hrest⟩ := hlater h
      exact ⟨hle, hm, by rw [hset]; exact hrest⟩
    | some m =>
      by_cases hm : m.expired = true
      · simp only [expiredFrom, if_pos hm, List.cons.injEq] at h
        obtain ⟨rfl, hrest⟩ := h
        refine ⟨Nat.le_refl _, ⟨m, by simp, hm⟩, ?_⟩
        rw [Nat.sub_self, List.set_cons_zero]
        exact hrest
      · simp only [expiredFrom, if_neg hm] at h
        obtain ⟨hle, hm', hset, hrest⟩ := hlater h
        refine ⟨hle, hm', ?_⟩
        rw [hset]
        simp only [expiredFrom, if_neg hm]
        exact hrest

/-- Each expiry takes the lowest expired manifest off. -/
theorem expireManifestStep_expired (s : State) : s.expireManifestStep.expiredManifests = s.expiredManifests.tail := by
  unfold State.expireManifestStep
  split
  · rename_i h
    rw [h]
    rfl
  · rename_i n rest h
    obtain ⟨hle, ⟨m, hm, _⟩, hrest⟩ := expiredFrom_cons h
    have hfound : s.manifest? n = some m := by rw [State.manifest?, entryAt_one _ _ hle, hm]; rfl
    have hset : (s.endManifest n m .expired).custody.manifests = s.custody.manifests.set (n - 1) none := by
      simp [State.endManifest, State.freeManifest, State.setManifest, State.setManifests, State.setRegister, setEntry,
        Nat.not_lt.2 hle]
    rw [hfound, h]
    dsimp only
    rw [State.expiredManifests, hset]
    exact hrest

theorem settleManifests_expired (s : State) : s.settleManifests.expiredManifests = [] :=
  repeatStep_drains (g := State.expiredManifests) (fun t => by rw [expireManifestStep_expired, List.length_tail]) _ s (Nat.le_refl _)

/-! ### Expired transfers -/

/-- The manifests as they stand, and the transfer table without the entry of an identifier. -/
theorem expireTransit_tables (s : State) (e : TransferEntry) : (s.expireTransit e).custody.manifests = s.custody.manifests ∧
    (s.expireTransit e).transfer.entries = eraseBy TransferEntry.id e.id s.transfer.entries := by
  unfold State.expireTransit
  split <;> simp [State.putRecord, State.setRegister, State.eraseEntry, State.setEntries]

theorem dropCartridge_tables (s : State) (e : TransferEntry) (o : TransferOutcome) :
    (s.dropCartridge e o).custody.manifests = s.custody.manifests ∧
      (s.dropCartridge e o).transfer.entries = eraseBy TransferEntry.id e.id s.transfer.entries := by
  simp [State.dropCartridge, State.eraseRecord, State.setRegister, State.eraseEntry, State.setEntries]

/-- Erasing the entry of a due identifier shortens the list of those due. -/
theorem length_due_erased {due : TransferEntry → Bool} {l : List TransferEntry} {e : TransferEntry} (h : e ∈ l.filter due) :
    ((eraseBy TransferEntry.id e.id l).filter due).length ≤ (l.filter due).length - 1 := by
  have hcomm : (eraseBy TransferEntry.id e.id l).filter due = (l.filter due).filter fun x => decide (x.id ≠ e.id) := by
    rw [eraseBy, List.filter_filter, List.filter_filter]
    exact List.filter_congr fun x _ => Bool.and_comm _ _
  rw [hcomm]
  have hlt : ((l.filter due).filter fun x => decide (x.id ≠ e.id)).length < (l.filter due).length :=
    List.length_filter_lt_length_iff_exists.2 ⟨e, h, by simp⟩
  omega

/-- An item drawn from a list, with the free choice it takes, or none from the empty list. -/
theorem choose_due {α : Type} (s : State) (l : List α) : (∃ e t, s.choose l = (some e, t) ∧ e ∈ l ∧ ∃ n, t = s.withFree n) ∨
    l = [] ∧ s.choose l = (none, s) := by
  by_cases hl : l = []
  · subst hl
    exact .inr ⟨rfl, rfl⟩
  · obtain ⟨e, he, hfirst⟩ := choose_mem s l hl
    obtain ⟨n, hn⟩ := choose_snd s l
    exact .inl ⟨e, s.withFree n, Prod.ext hfirst hn, he, n, rfl⟩

/-- One of the entries due is taken off, or none is due: the manifests stand, and the transfer table loses nothing but that entry. -/
theorem expireOneTransit_tables (s : State) : s.expireOneTransit.custody.manifests = s.custody.manifests ∧
    (s.expireOneTransit.transfer.entries = s.transfer.entries ∧ s.transfer.entries.filter TransferEntry.overdue = [] ∨
      ∃ e ∈ s.transfer.entries.filter TransferEntry.overdue,
        s.expireOneTransit.transfer.entries = eraseBy TransferEntry.id e.id s.transfer.entries) := by
  rw [State.expireOneTransit]
  rcases choose_due s (s.transfer.entries.filter TransferEntry.overdue) with ⟨e, t, hc, he, n, rfl⟩ | ⟨hnone, hc⟩
  · rw [hc]
    exact ⟨(expireTransit_tables _ e).1, .inr ⟨e, he, (expireTransit_tables _ e).2⟩⟩
  · rw [hc]
    exact ⟨rfl, .inl ⟨rfl, hnone⟩⟩

theorem abandonOne_tables (s : State) : s.abandonOne.custody.manifests = s.custody.manifests ∧
    (s.abandonOne.transfer.entries = s.transfer.entries ∧ s.transfer.entries.filter TransferEntry.abandoned = [] ∨
      ∃ e ∈ s.transfer.entries.filter TransferEntry.abandoned,
        s.abandonOne.transfer.entries = eraseBy TransferEntry.id e.id s.transfer.entries) := by
  rw [State.abandonOne]
  rcases choose_due s (s.transfer.entries.filter TransferEntry.abandoned) with ⟨e, t, hc, he, n, rfl⟩ | ⟨hnone, hc⟩
  · rw [hc]
    exact ⟨(dropCartridge_tables _ e _).1, .inr ⟨e, he, (dropCartridge_tables _ e _).2⟩⟩
  · rw [hc]
    exact ⟨rfl, .inl ⟨rfl, hnone⟩⟩

/-- Either way the list of those due gets shorter. -/
theorem length_due_step {due : TransferEntry → Bool} {l k : List TransferEntry}
    (h : k = l ∧ l.filter due = [] ∨ ∃ e ∈ l.filter due, k = eraseBy TransferEntry.id e.id l) :
    (k.filter due).length ≤ (l.filter due).length - 1 := by
  rcases h with ⟨rfl, hnone⟩ | ⟨e, he, rfl⟩
  · rw [hnone]
    exact Nat.le_refl _
  · exact length_due_erased he

theorem settleTransits_overdue (s : State) : s.settleTransits.transfer.entries.filter TransferEntry.overdue = [] :=
  repeatStep_drains (g := fun t : State => t.transfer.entries.filter TransferEntry.overdue)
    (fun t => length_due_step (expireOneTransit_tables t).2) _ s (Nat.le_refl _)

theorem settleInbound_abandoned (s : State) : s.settleInbound.transfer.entries.filter TransferEntry.abandoned = [] :=
  repeatStep_drains (g := fun t : State => t.transfer.entries.filter TransferEntry.abandoned)
    (fun t => length_due_step (abandonOne_tables t).2) _ s (Nat.le_refl _)

theorem expiredManifests_congr {s t : State} (h : t.custody.manifests = s.custody.manifests) :
    t.expiredManifests = s.expiredManifests := by rw [State.expiredManifests, State.expiredManifests, h]

theorem settleTransits_expired {s : State} (h : s.expiredManifests = []) : s.settleTransits.expiredManifests = [] :=
  repeatStep_invariant (P := fun t => t.expiredManifests = [])
    (fun t ht => (expiredManifests_congr (expireOneTransit_tables t).1).trans ht) _ h

theorem settleInbound_expired {s : State} (h : s.expiredManifests = []) : s.settleInbound.expiredManifests = [] :=
  repeatStep_invariant (P := fun t => t.expiredManifests = [])
    (fun t ht => (expiredManifests_congr (abandonOne_tables t).1).trans ht) _ h

/-- An inbound expiry brings no outbound one about. -/
theorem settleInbound_overdue {s : State} (h : s.transfer.entries.filter TransferEntry.overdue = []) :
    s.settleInbound.transfer.entries.filter TransferEntry.overdue = [] := by
  refine repeatStep_invariant (P := fun t => t.transfer.entries.filter TransferEntry.overdue = []) (fun t ht => ?_) _ h
  rcases (abandonOne_tables t).2 with ⟨hsame, _⟩ | ⟨e, _, herased⟩
  · rw [hsame, ht]
  · rw [herased, eraseBy, List.filter_filter, List.filter_eq_nil_iff]
    intro x hx hdue
    exact List.filter_eq_nil_iff.1 ht x hx (Bool.and_eq_true_iff.1 hdue).1

/-! ### Peers found gone -/

/-- The peers found gone: entries that are gone, the own one not. -/
theorem mem_goneFrom {own base a : Nat} {l : List PeerEntry} (h : a ∈ goneFrom own base l) :
    base ≤ a ∧ a ≠ own ∧ ∃ p, l[a - base]? = some p ∧ p.gone = true := by
  induction l generalizing base with
  | nil => cases h
  | cons q l ih =>
    have hlater (k : a ∈ goneFrom own (base + 1) l) : base ≤ a ∧ a ≠ own ∧ ∃ p, (q :: l)[a - base]? = some p ∧ p.gone = true := by
      obtain ⟨hle, hown, p, hp, hgone⟩ := ih k
      have hplace : a - base = (a - (base + 1)) + 1 := by omega
      exact ⟨by omega, hown, p, by rw [hplace, List.getElem?_cons_succ, hp], hgone⟩
    rw [goneFrom] at h
    split at h
    · rename_i hq
      rcases List.mem_cons.1 h with rfl | h
      · obtain ⟨hgone, hown⟩ := Bool.and_eq_true_iff.1 hq
        exact ⟨Nat.le_refl _, by simpa using hown, q, by simp, hgone⟩
      · exact hlater h
    · exact hlater h

theorem base_le_of_mem_goneFrom {own base a : Nat} {l : List PeerEntry} (h : a ∈ goneFrom own base l) : base ≤ a := (mem_goneFrom h).1

/-- An entry that is gone no more is no longer among those found. -/
theorem goneFrom_set {own base a : Nat} {l : List PeerEntry} {p : PeerEntry} (hp : p.gone = false) (ha : base ≤ a) :
    goneFrom own base (l.set (a - base) p) = (goneFrom own base l).filter fun x => decide (x ≠ a) := by
  induction l generalizing base with
  | nil => rfl
  | cons q l ih =>
    by_cases hbase : a = base
    · subst hbase
      have hrest : (goneFrom own (a + 1) l).filter (fun x => decide (x ≠ a)) = goneFrom own (a + 1) l := by
        rw [List.filter_eq_self]
        intro x hx
        have := base_le_of_mem_goneFrom hx
        simp only [decide_eq_true_eq]
        omega
      rw [Nat.sub_self, List.set_cons_zero, goneFrom, goneFrom, hp, Bool.false_and, if_neg Bool.false_ne_true]
      split
      · rw [List.filter_cons_of_neg (by simp), hrest]
      · exact hrest.symm
    · have hplace : a - base = (a - (base + 1)) + 1 := by omega
      rw [hplace, List.set_cons_succ, goneFrom, goneFrom, ih (by omega)]
      split
      · rw [List.filter_cons_of_pos (by simp only [decide_eq_true_eq]; omega)]
      · rfl

/-- What marking a peer ABSENT leaves of the line unit. -/
theorem makeAbsent_line {s : State} {a : Nat} {p : PeerEntry} (hp : s.peer a = some p) (hgone : p.gone = true)
    (hown : a ≠ s.line.address) :
    (s.makeAbsent a).line = { s.line with peers := s.line.peers.set a { p with presence := .absent } } := by
  rw [State.makeAbsent, hp]
  dsimp only
  rw [if_pos (by simp [hgone, hown]), State.judgeNeighbours_line]
  split
  · rw [State.emit_line]
    rfl
  · rfl

/-- One of the peers found gone is taken off, or none is. -/
theorem absentOne_line (s : State) : s.absentOne = s ∧ s.gonePeers = [] ∨
    ∃ a ∈ s.gonePeers, ∃ p, p.gone = false ∧ s.absentOne.line = { s.line with peers := s.line.peers.set a p } := by
  rw [State.absentOne]
  rcases choose_due s s.gonePeers with ⟨a, t, hc, ha, n, rfl⟩ | ⟨hnone, hc⟩
  · obtain ⟨_, hown, p, hp, hgone⟩ := mem_goneFrom ha
    rw [hc]
    exact .inr ⟨a, ha, { p with presence := .absent }, by simp [PeerEntry.gone],
      makeAbsent_line (s := s.withFree n) hp hgone hown⟩
  · rw [hc]
    exact .inl ⟨rfl, hnone⟩

theorem settlePeers_gone (s : State) : s.settlePeers.gonePeers = [] := by
  refine repeatStep_drains (g := State.gonePeers) (fun t => ?_) _ s (Nat.le_refl _)
  rcases absentOne_line t with ⟨hsame, hnone⟩ | ⟨a, ha, p, hp, hline⟩
  · rw [hsame, hnone]
    exact Nat.le_refl _
  · have hset := goneFrom_set (own := t.line.address) (base := 0) (a := a) (l := t.line.peers) hp (Nat.zero_le a)
    rw [State.gonePeers, hline]
    exact (congrArg List.length hset).trans_le (length_filter_ne_lt ha)

/-- Marking peers ABSENT leaves no superframe end due. -/
theorem settlePeers_superframe {s : State} (h : s.line.superframeDue = false) : s.settlePeers.line.superframeDue = false := by
  refine repeatStep_invariant (P := fun t => t.line.superframeDue = false) (fun t ht => ?_) _ h
  rcases absentOne_line t with ⟨hsame, _⟩ | ⟨a, _, p, _, hline⟩
  · rw [hsame, ht]
  · rw [hline]
    exact ht

theorem superframeStep_due (s : State) : s.superframeStep.line.superframeDue = false := by
  unfold State.superframeStep
  split
  · rfl
  · rename_i h
    exact Bool.eq_false_iff.2 h

/-! ### Settled after settling -/

theorem settle_settled (s : State) : s.settle.settled = true := by
  obtain ⟨u, hu⟩ : ∃ u, u = s.settleManifests.settleTransits.settleInbound := ⟨_, rfl⟩
  have hexpired : u.expiredManifests = [] := by
    rw [hu]
    exact settleInbound_expired (settleTransits_expired (settleManifests_expired s))
  have hoverdue : u.transfer.entries.filter TransferEntry.overdue = [] := by
    rw [hu]
    exact settleInbound_overdue (settleTransits_overdue _)
  have habandoned : u.transfer.entries.filter TransferEntry.abandoned = [] := by
    rw [hu]
    exact settleInbound_abandoned _
  have hsame : u.SameCustody u.superframeStep.settlePeers :=
    ((still_superframeStep u).trans (State.Still.repeatStep still_absentOne _ _)).same
  have hsettle : s.settle = u.superframeStep.settlePeers := by rw [State.settle, hu]
  rw [hsettle, settled_iff, hsame.entries]
  exact ⟨(expiredManifests_congr hsame.manifests).trans hexpired, hoverdue, habandoned,
    settlePeers_superframe (superframeStep_due u), settlePeers_gone _⟩

/-- A command taken on the settled state is taken alike once the state has been settled. -/
theorem taken_settle (s : State) (f : State → State) : taken s f = taken s.settle f := by
  rw [taken_of_settled (settle_settled s), taken]

/-- Settles O3: every row but the listed ones is its effect on the settled state (log 1). -/
theorem dueStepsSettleFirst : Obligations.DueStepsSettleFirst := by
  intro s
  refine ⟨settle_settled s, fun c hc => ?_⟩
  cases c with
  | coldStart => cases hc
  | manifestExpiry => cases hc
  | rollover => cases hc
  | conditioningComplete => cases hc
  | superframeEnd => cases hc
  | peerAbsent a => cases hc
  | transitLimitExpiry id => cases hc
  | inboundTransitExpiry id => cases hc
  | _ =>
    simp only [exec]
    exact taken_settle s _

end Sys2Proof.Machine

namespace Sys2Proof.Machine

/-! ### The custody invariant, identifier by identifier -/

/-- The record of an identifier and its transfer entry name each other, or neither names the other (R143). -/
def Paired (r : Option Record) (e : Option TransferEntry) : Prop :=
  match r with
  | none => e = none
  | some x =>
    match x.st with
    | .transferring p _ => ∃ y, e = some y ∧ y.direction = .out ∧ y.peer = p.station ∧ y.number = p.number
    | .inbound p _ => ∃ y, e = some y ∧ y.direction = .in_ ∧ y.peer = p.station ∧ y.number = p.number
    | _ => e = none

/-- A scan list entry of the kind stands as a commit of the intent needs it, by the record of its identifier (R8, R66). -/
def scanReady (intent : Option Intent) (kind : ScanKind) (r : Option Record) : Bool :=
  match kind, r with
  | .record _, some x =>
    match x.st with
    | .loading _ _ => intent != some .returning
    | .returning _ => intent == some .returning
    | _ => false
  | .unregistered, none => intent == some .returning
  | _, _ => false

/-- The record of a member stands as the manifest of the number needs it (R25, R26, R34). -/
def memberReady (number : Nat) (state : ManifestState) (r : Option Record) : Bool :=
  match r with
  | none => false
  | some x =>
    match x.st with
    | .reserved _ n => n == number
    | .loading _ n => n == number && state == .inSession
    | _ => false

/-- What the custody invariant asks of one identifier, with the record and the transfer entry given. -/
structure State.Fits (s : State) (x : Ident) (r : Option Record) (e : Option TransferEntry) : Prop where
  paired : Paired r e
  hold : ∀ y, r = some y → y.holdFits s.cfg.ceiling = true
  ready : ∀ k ∈ s.dock.scans, k.id = x → scanReady s.dock.intent k.kind r = true
  listed : ∀ y, r = some y → y.inMovement = true → ∃ k ∈ s.dock.scans, k.id = x ∧ k.isUnregistered = false
  owner : ∀ y n, r = some y → y.st.manifest = some n → ∃ m, s.manifest? n = some m ∧ x ∈ m.members
  member : ∀ n m, s.manifest? n = some m → x ∈ m.members → memberReady n m.state r = true

/-- The scan list by itself: at most 32 entries, no identifier twice, and empty outside LOADING and SEALING (R58). -/
structure DockUnit.ScansFit (d : DockUnit) : Prop where
  short : d.scans.length ≤ 32
  nodup : (d.scans.map (·.id)).Nodup
  place : d.scans = [] ∨ d.session = .loading ∨ d.session = .sealing

/-- A manifest by itself, with the number that the session has bound (R25, R34). -/
structure Manifest.Shaped (m : Manifest) (bound : Bool) : Prop where
  some : 1 ≤ m.members.length
  short : m.members.length ≤ 32
  nodup : m.members.Nodup
  state : m.state = .inSession ↔ bound = true

/-- The custody invariant but for the stop of movement in a confirmed fire. -/
structure State.CustodyCore (s : State) : Prop where
  records : sortedBy Record.id s.custody.register = true
  entries : sortedBy TransferEntry.id s.transfer.entries = true
  fits : ∀ x, s.Fits x (s.find x) (s.entry x)
  capacity : s.transfer.entries.length ≤ 8
  scans : s.dock.ScansFit
  table : s.custody.manifests.length = 4
  manifests : ∀ n m, s.manifest? n = some m → m.Shaped (s.boundManifest == some n)
  bound : ∀ n, s.boundManifest = some n → ∃ m, s.manifest? n = some m
  ceiling : 1 ≤ s.cfg.ceiling
  configured : s.configured = true ∨ (∀ x, s.find x = none) ∧ s.dock.session = .idle ∧ s.line.peerIn = []

/-- In CONFIRMED and later nothing moves: no session before its commit point, no entry OFFERED (R138, R155). -/
def State.Stopped (s : State) : Prop :=
  3 ≤ seqCode s.fire.seq → s.dock.session.beforeCommit = false ∧ ∀ e ∈ s.transfer.entries, e.isOffered = false

/-! ### The invariant as the model states it -/

theorem stopped_iff (s : State) : s.movementStopped = true ↔ s.Stopped := by
  simp only [State.movementStopped, State.Stopped, Bool.or_eq_true, decide_eq_true_eq, Bool.and_eq_true, Bool.not_eq_true',
    List.all_eq_true]
  constructor
  · rintro (h | h) hseq
    · omega
    · exact h
  · intro h
    by_cases hseq : 3 ≤ seqCode s.fire.seq
    · exact .inr (h hseq)
    · exact .inl (by omega)

theorem entryReady_eq (s : State) (k : ScanEntry) : s.entryReady k = scanReady s.dock.intent k.kind (s.find k.id) := by
  unfold State.entryReady scanReady
  cases k.kind <;> cases s.find k.id with
    | none => rfl
    | some x => cases x.st <;> rfl

theorem memberFits_eq (s : State) (n : Nat) (m : Manifest) (x : Ident) : s.memberFits n m x = memberReady n m.state (s.find x) := by
  unfold State.memberFits memberReady
  cases s.find x with
  | none => rfl
  | some y => cases y.st <;> rfl

/-- A manifest's number is the place of its entry in the table. -/
theorem manifest?_range {s : State} {n : Nat} {m : Manifest} (h : s.manifest? n = some m) : 1 ≤ n ∧ n - 1 < s.custody.manifests.length := by
  have h1 : 1 ≤ n := by
    refine Nat.le_of_not_lt fun hn => ?_
    simp [State.manifest?, entryAt, hn] at h
  refine ⟨h1, Nat.lt_of_not_le fun hn => ?_⟩
  rw [State.manifest?, entryAt_one _ _ h1, List.getElem?_eq_none hn] at h
  cases h

/-- A manifest's number is one of the table's four. -/
theorem manifest?_bounds {s : State} (h : s.custody.manifests.length = 4) {n : Nat} {m : Manifest} (hm : s.manifest? n = some m) :
    n ∈ [1, 2, 3, 4] := by
  have := manifest?_range hm
  simp only [List.mem_cons, List.not_mem_nil, or_false]
  omega

section
variable {s : State}

theorem mem_register_iff {r : Record} (hr : sortedBy Record.id s.custody.register = true) :
    r ∈ s.custody.register ↔ s.find r.id = some r := ⟨findBy_of_mem Record.id hr, findBy_mem Record.id⟩

theorem mem_entries_iff {e : TransferEntry} (he : sortedBy TransferEntry.id s.transfer.entries = true) :
    e ∈ s.transfer.entries ↔ s.entry e.id = some e := ⟨findBy_of_mem TransferEntry.id he, findBy_mem TransferEntry.id⟩

/-- In a sorted register what holds of all records is what holds of the record found under each identifier. -/
theorem register_all_iff {p : Record → Bool} (hr : sortedBy Record.id s.custody.register = true) :
    s.custody.register.all p = true ↔ ∀ x r, s.find x = some r → p r = true := by
  rw [List.all_eq_true]
  exact ⟨fun h x r hx => h r (findBy_mem Record.id hx), fun h r hmem => h r.id r ((mem_register_iff hr).1 hmem)⟩

theorem entries_all_iff {p : TransferEntry → Bool} (he : sortedBy TransferEntry.id s.transfer.entries = true) :
    s.transfer.entries.all p = true ↔ ∀ x e, s.entry x = some e → p e = true := by
  rw [List.all_eq_true]
  exact ⟨fun h x e hx => h e (findBy_mem TransferEntry.id hx), fun h e hmem => h e.id e ((mem_entries_iff he).1 hmem)⟩

/-- Records and transfer entries name each other just where each identifier's do. -/
theorem paired_iff : ((∀ x r, s.find x = some r → s.entryFits r = true) ∧ ∀ x e, s.entry x = some e → s.recordFits e = true) ↔
    ∀ x, Paired (s.find x) (s.entry x) := by
  have hkey {x : Ident} {r : Record} (h : s.find x = some r) : r.id = x := findBy_key Record.id h
  have hkey' {x : Ident} {e : TransferEntry} (h : s.entry x = some e) : e.id = x := findBy_key TransferEntry.id h
  constructor
  · rintro ⟨hrecords, hentries⟩ x
    unfold Paired
    cases hx : s.find x with
    | none =>
      cases hy : s.entry x with
      | none => rfl
      | some y =>
        have := hentries x y hy
        rw [State.recordFits, hkey' hy, hx] at this
        cases this
    | some r =>
      have hr := hrecords x r hx
      have hcode (h7 : r.st.code ≠ 7) (h8 : r.st.code ≠ 8) : s.entry x = none := by
        cases hy : s.entry x with
        | none => rfl
        | some y =>
          have := hentries x y hy
          rw [State.recordFits, hkey' hy, hx] at this
          simp [h7, h8] at this
      rw [State.entryFits, hkey hx] at hr
      rcases r with ⟨_, st, _, _, _⟩
      cases st with
      | transferring p _ =>
        cases hy : s.entry x with
        | none =>
          rw [hy] at hr
          cases hr
        | some y =>
          rw [hy] at hr
          exact ⟨y, rfl, by simpa [and_assoc] using hr⟩
      | inbound p _ =>
        cases hy : s.entry x with
        | none =>
          rw [hy] at hr
          cases hr
        | some y =>
          rw [hy] at hr
          exact ⟨y, rfl, by simpa [and_assoc] using hr⟩
      | _ => exact hcode (by simp [RecState.code]) (by simp [RecState.code])
  · intro h
    refine ⟨fun x r hx => ?_, fun x e hx => ?_⟩
    · have hp := h x
      rw [hx] at hp
      rw [State.entryFits, hkey hx]
      rcases r with ⟨_, st, _, _, _⟩
      cases st with
      | transferring p _ =>
        obtain ⟨y, hy, hd, hpeer, hn⟩ := hp
        rw [hy]
        simp [hd, hpeer, hn]
      | inbound p _ =>
        obtain ⟨y, hy, hd, hpeer, hn⟩ := hp
        rw [hy]
        simp [hd, hpeer, hn]
      | _ => rfl
    · have hp := h x
      rw [hx] at hp
      rw [State.recordFits, hkey' hx]
      cases hr : s.find x with
      | none =>
        rw [hr] at hp
        cases hp
      | some r =>
        rw [hr] at hp
        rcases r with ⟨_, st, _, _, _⟩
        cases st with
        | transferring p _ => rfl
        | inbound p _ => rfl
        | _ => cases hp

end

/-- The model's invariant is the two parts. -/
theorem custodyHeld_iff (s : State) : s.custodyHeld = true ↔ s.CustodyCore ∧ s.Stopped := by
  rw [← stopped_iff]
  simp only [State.custodyHeld, Bool.and_eq_true]
  constructor
  · rintro ⟨⟨⟨⟨⟨hcanonical, htransfers⟩, hscans⟩, hmembers⟩, hstopped⟩, hholds⟩
    refine ⟨?_, hstopped⟩
    obtain ⟨hrecords, hentries⟩ := Bool.and_eq_true_iff.1 hcanonical
    simp only [State.transfersMatch, Bool.and_eq_true, register_all_iff hrecords, entries_all_iff hentries, decide_eq_true_eq] at htransfers
    simp only [State.scansMatch, Bool.and_eq_true, register_all_iff hrecords, decide_eq_true_eq, Bool.or_eq_true, List.isEmpty_iff,
      beq_iff_eq, List.all_eq_true, or_assoc] at hscans
    simp only [State.membersMatch, Bool.and_eq_true, register_all_iff hrecords, beq_iff_eq, List.all_eq_true, Option.all_eq_true] at hmembers
    simp only [State.holdsBounded, Bool.and_eq_true, register_all_iff hrecords, Bool.or_eq_true, decide_eq_true_eq, List.isEmpty_iff,
      beq_iff_eq] at hholds
    obtain ⟨⟨hentryFits, hrecordFits⟩, hcapacity⟩ := htransfers
    obtain ⟨⟨⟨⟨hshort, hnodup⟩, hplace⟩, hready⟩, hlisted⟩ := hscans
    obtain ⟨⟨⟨htable, hmanifests⟩, howner⟩, hbound⟩ := hmembers
    obtain ⟨⟨hholds, hceiling⟩, hconfigured⟩ := hholds
    have hpaired := paired_iff.1 ⟨hentryFits, hrecordFits⟩
    have hmanifest {n : Nat} {m : Manifest} (hm : s.manifest? n = some m) := by
      have := hmanifests n (manifest?_bounds htable hm)
      simpa only [State.manifestFits, hm, Bool.and_eq_true, decide_eq_true_eq, List.all_eq_true, beq_iff_eq, and_assoc] using this
    refine ⟨hrecords, hentries, fun x => ⟨hpaired x, fun y hy => hholds x y hy, fun k hk hid => ?_, fun y hy hmoves => ?_,
      fun y n hy hn => ?_, fun n m hm hx => ?_⟩, hcapacity, ⟨hshort, hnodup, hplace⟩, htable, fun n m hm => ?_, fun n hn => ?_, hceiling, ?_⟩
    · rw [← hid, ← entryReady_eq]
      exact hready k hk
    · have := hlisted x y hy
      rw [State.listed, hmoves] at this
      simpa [findBy_key Record.id hy] using this
    · have := howner x y hy
      rw [State.ownerFits, hn] at this
      dsimp only at this
      split at this
      · cases this
      · rename_i m hm
        exact ⟨m, hm, by simpa [findBy_key Record.id hy] using this⟩
    · rw [← memberFits_eq]
      exact (hmanifest hm).2.2.2.1 x hx
    · obtain ⟨hsome, hshort, hnodup, _, hstate⟩ := hmanifest hm
      exact ⟨hsome, hshort, hnodup, by rw [← hstate, beq_iff_eq]⟩
    · exact Option.isSome_iff_exists.1 (hbound n hn)
    · refine hconfigured.imp_right ?_
      rintro ⟨⟨hempty, hidle⟩, hpeer⟩
      exact ⟨fun x => by rw [State.find, hempty]; rfl, hidle, hpeer⟩
  · rintro ⟨h, hstopped⟩
    refine ⟨⟨⟨⟨⟨Bool.and_eq_true_iff.2 ⟨h.records, h.entries⟩, ?_⟩, ?_⟩, ?_⟩, hstopped⟩, ?_⟩
    · simp only [State.transfersMatch, Bool.and_eq_true, register_all_iff h.records, entries_all_iff h.entries, decide_eq_true_eq]
      exact ⟨paired_iff.2 fun x => (h.fits x).paired, h.capacity⟩
    · simp only [State.scansMatch, Bool.and_eq_true, register_all_iff h.records, decide_eq_true_eq, Bool.or_eq_true, List.isEmpty_iff,
        beq_iff_eq, List.all_eq_true, or_assoc]
      refine ⟨⟨⟨⟨h.scans.short, h.scans.nodup⟩, h.scans.place⟩, fun k hk => ?_⟩, fun x y hy => ?_⟩
      · rw [entryReady_eq]
        exact (h.fits k.id).ready k hk rfl
      · rw [State.listed]
        cases hmoves : y.inMovement with
        | false => rfl
        | true => simpa [findBy_key Record.id hy] using (h.fits x).listed y hy hmoves
    · simp only [State.membersMatch, Bool.and_eq_true, register_all_iff h.records, beq_iff_eq, List.all_eq_true, Option.all_eq_true]
      refine ⟨⟨⟨h.table, fun n _ => ?_⟩, fun x y hy => ?_⟩, fun n hn => Option.isSome_iff_exists.2 (h.bound n hn)⟩
      · rw [State.manifestFits]
        split
        · rfl
        · rename_i m hm
          obtain ⟨hsome, hshort, hnodup, hstate⟩ := h.manifests n m hm
          simp only [Bool.and_eq_true, decide_eq_true_eq, List.all_eq_true, beq_iff_eq, and_assoc]
          refine ⟨hsome, hshort, hnodup, fun x hx => ?_, ?_⟩
          · rw [memberFits_eq]
            exact (h.fits x).member n m hm hx
          · rw [Bool.eq_iff_iff, beq_iff_eq]
            exact hstate
      · rw [State.ownerFits]
        split
        · rfl
        · rename_i n hn
          obtain ⟨m, hm, hx⟩ := (h.fits x).owner y n hy hn
          rw [hm]
          simpa [findBy_key Record.id hy] using hx
    · simp only [State.holdsBounded, Bool.and_eq_true, register_all_iff h.records, Bool.or_eq_true, decide_eq_true_eq, List.isEmpty_iff,
        beq_iff_eq]
      refine ⟨⟨fun x y hy => (h.fits x).hold y hy, h.ceiling⟩, h.configured.imp_right ?_⟩
      rintro ⟨hnone, hidle, hpeer⟩
      refine ⟨⟨?_, hidle⟩, hpeer⟩
      rw [List.eq_nil_iff_forall_not_mem]
      intro r hr
      have := (mem_register_iff h.records).1 hr
      rw [hnone] at this
      cases this

end Sys2Proof.Machine

namespace Sys2Proof.Machine

/-! ### Changes that keep the custody invariant -/

/-- What a change keeps of custody: the invariant but for the stop of movement, that stop, and the register's capacity. -/
structure State.CustodyKept (s t : State) : Prop where
  core : s.CustodyCore → t.CustodyCore
  stopped : s.CustodyCore → s.Stopped → t.Stopped
  room : s.CustodyCore → s.occupancy ≤ 1024 → t.occupancy ≤ 1024

namespace State.CustodyKept

theorem refl (s : State) : s.CustodyKept s := ⟨id, fun _ => id, fun _ => id⟩

theorem trans {s t u : State} (h : s.CustodyKept t) (k : t.CustodyKept u) : s.CustodyKept u :=
  ⟨k.core ∘ h.core, fun hs => k.stopped (h.core hs) ∘ h.stopped hs, fun hs => k.room (h.core hs) ∘ h.room hs⟩

/-- As `State.CustodyKept.trans`, the later change first. -/
theorem after {s t u : State} (k : t.CustodyKept u) (h : s.CustodyKept t) : s.CustodyKept u := h.trans k

/-- Whether a change keeps custody need be shown on states that meet the invariant alone. -/
theorem of_core {s t : State} (h : s.CustodyCore → s.CustodyKept t) : s.CustodyKept t :=
  ⟨fun hs => (h hs).core hs, fun hs => (h hs).stopped hs, fun hs => (h hs).room hs⟩

theorem ite {s a b : State} {p : Prop} [Decidable p] (ha : p → s.CustodyKept a) (hb : ¬p → s.CustodyKept b) :
    s.CustodyKept (if p then a else b) := by
  split
  · exact ha ‹_›
  · exact hb ‹_›

theorem repeatStep {f : State → State} (h : ∀ t : State, t.CustodyKept (f t)) (n : Nat) (s : State) :
    s.CustodyKept (Machine.repeatStep f n s) := by
  induction n generalizing s with
  | zero => exact refl s
  | succ n ih => exact (h s).trans (ih _)

end State.CustodyKept

/-! ### Changes of records and transfer entries -/

/-- All that the invariant reads but the register and the transfer table is the same; the peer input queue stays empty on a station not yet
configured. -/
structure State.SameFrame (s t : State) : Prop where
  manifests : t.custody.manifests = s.custody.manifests
  session : t.dock.session = s.dock.session
  intent : t.dock.intent = s.dock.intent
  manifest : t.dock.manifest = s.dock.manifest
  scans : t.dock.scans = s.dock.scans
  config : t.request.config = s.request.config
  peerIn : s.configured = false → s.line.peerIn = [] → t.line.peerIn = []
  seq : t.fire.seq = s.fire.seq

theorem State.SameCustody.frame {s t : State} (h : s.SameCustody t) : s.SameFrame t :=
  ⟨h.manifests, h.session, h.intent, h.manifest, h.scans, h.config, fun _ k => h.peerIn.trans k, h.seq⟩

namespace State.SameFrame

variable {s t u : State}

theorem trans (h : s.SameFrame t) (k : t.SameFrame u) : s.SameFrame u :=
  ⟨k.manifests.trans h.manifests, k.session.trans h.session, k.intent.trans h.intent, k.manifest.trans h.manifest,
    k.scans.trans h.scans, k.config.trans h.config,
    fun hc hp => k.peerIn (by rw [← hc]; simp only [State.configured, h.config]) (h.peerIn hc hp), k.seq.trans h.seq⟩

theorem cfg (h : s.SameFrame t) : t.cfg = s.cfg := by rw [State.cfg, State.cfg, h.config]

theorem isConfigured (h : s.SameFrame t) : t.configured = s.configured := by rw [State.configured, State.configured, h.config]

theorem manifest? (h : s.SameFrame t) (n : Nat) : t.manifest? n = s.manifest? n := by
  rw [State.manifest?, State.manifest?, h.manifests]

theorem boundManifest (h : s.SameFrame t) : t.boundManifest = s.boundManifest := by
  rw [State.boundManifest, State.boundManifest, h.intent, h.session, h.manifest]

/-- What an identifier needs depends on its record and entry, and on the frame. -/
theorem fits (h : s.SameFrame t) {x : Ident} {r : Option Record} {e : Option TransferEntry} (k : s.Fits x r e) : t.Fits x r e := by
  obtain ⟨hpaired, hhold, hready, hlisted, howner, hmember⟩ := k
  exact ⟨hpaired, by rw [h.cfg]; exact hhold, by rw [h.scans, h.intent]; exact hready, by rw [h.scans]; exact hlisted,
    by simpa only [h.manifest?] using howner, by simpa only [h.manifest?] using hmember⟩

/-- The invariant after a change of records and entries: they are sorted, few enough, and each identifier's fit. -/
theorem core (h : s.SameFrame t) (hs : s.CustodyCore) (hrecords : sortedBy Record.id t.custody.register = true)
    (hentries : sortedBy TransferEntry.id t.transfer.entries = true) (hcapacity : t.transfer.entries.length ≤ 8)
    (hfits : ∀ x, s.Fits x (t.find x) (t.entry x)) (hconf : s.configured = true ∨ ∀ x, s.find x = none → t.find x = none) :
    t.CustodyCore where
  records := hrecords
  entries := hentries
  fits x := h.fits (hfits x)
  capacity := hcapacity
  scans := by
    obtain ⟨hshort, hnodup, hplace⟩ := hs.scans
    exact ⟨by rw [h.scans]; exact hshort, by rw [h.scans]; exact hnodup, by rw [h.scans, h.session]; exact hplace⟩
  table := by rw [h.manifests]; exact hs.table
  manifests n m hm := by
    rw [h.manifest?] at hm
    rw [h.boundManifest]
    exact hs.manifests n m hm
  bound n hn := by
    rw [h.boundManifest] at hn
    rw [h.manifest?]
    exact hs.bound n hn
  ceiling := by rw [h.cfg]; exact hs.ceiling
  configured := by
    rw [h.isConfigured]
    by_cases hyes : s.configured = true
    · exact .inl hyes
    · obtain ⟨hnone, hidle, hpeer⟩ := hs.configured.resolve_left hyes
      exact .inr ⟨fun x => hconf.resolve_left hyes x (hnone x), h.session.trans hidle, h.peerIn (Bool.eq_false_iff.2 hyes) hpeer⟩

end State.SameFrame

theorem State.SameCustody.find {s t : State} (h : s.SameCustody t) (x : Ident) : t.find x = s.find x := by
  rw [State.find, State.find, h.register]

theorem State.SameCustody.entry {s t : State} (h : s.SameCustody t) (x : Ident) : t.entry x = s.entry x := by
  rw [State.entry, State.entry, h.entries]

/-- A change that custody does not see. -/
theorem State.SameCustody.kept {s t : State} (h : s.SameCustody t) : s.CustodyKept t where
  core hs := h.frame.core hs (by rw [h.register]; exact hs.records) (by rw [h.entries]; exact hs.entries)
    (by rw [h.entries]; exact hs.capacity) (fun x => by rw [h.find, h.entry]; exact hs.fits x)
    (.inr fun x hx => (h.find x).trans hx)
  stopped _ k hseq := by
    rw [h.session, h.entries]
    exact k (by rw [← h.seq]; exact hseq)
  room _ k := by
    rw [State.occupancy, h.register, h.scans]
    exact k

theorem State.Still.kept {s t : State} (h : s.Still t) : s.CustodyKept t := h.same.kept

/-! ### One identifier changed -/

/-- A change of the record and the entry of one identifier alone, the tables kept sorted. -/
structure State.OneChanged (s t : State) (id : Ident) : Prop where
  frame : s.SameFrame t
  records : sortedBy Record.id s.custody.register = true → sortedBy Record.id t.custody.register = true
  entries : sortedBy TransferEntry.id s.transfer.entries = true → sortedBy TransferEntry.id t.transfer.entries = true
  find : ∀ x, x ≠ id → t.find x = s.find x
  entry : ∀ x, x ≠ id → t.entry x = s.entry x

theorem State.OneChanged.trans {s t u : State} {id : Ident} (h : s.OneChanged t id) (k : t.OneChanged u id) : s.OneChanged u id :=
  ⟨h.frame.trans k.frame, k.records ∘ h.records, k.entries ∘ h.entries, fun x hx => (k.find x hx).trans (h.find x hx),
    fun x hx => (k.entry x hx).trans (h.entry x hx)⟩

/-- As `State.OneChanged.trans`, the later change first. -/
theorem State.OneChanged.after {s t u : State} {id : Ident} (k : t.OneChanged u id) (h : s.OneChanged t id) : s.OneChanged u id := h.trans k

theorem State.SameCustody.oneChanged {s t : State} (h : s.SameCustody t) (id : Ident) : s.OneChanged t id :=
  ⟨h.frame, fun k => h.register ▸ k, fun k => h.entries ▸ k, fun x _ => h.find x, fun x _ => h.entry x⟩

theorem sameFrame_setRegister (s : State) (l : List Record) : s.SameFrame (s.setRegister l) :=
  ⟨rfl, rfl, rfl, rfl, rfl, rfl, fun _ h => h, rfl⟩

theorem sameFrame_setEntries (s : State) (l : List TransferEntry) : s.SameFrame (s.setEntries l) :=
  ⟨rfl, rfl, rfl, rfl, rfl, rfl, fun _ h => h, rfl⟩

theorem oneChanged_putRecord (s : State) {r : Record} {id : Ident} (h : r.id = id) : s.OneChanged (s.putRecord r) id :=
  ⟨sameFrame_setRegister s _, sortedBy_putBy Record.id, fun h => h,
    fun _ hx => findBy_putBy_other Record.id (h ▸ hx) _, fun _ _ => rfl⟩

theorem oneChanged_eraseRecord (s : State) (id : Ident) : s.OneChanged (s.eraseRecord id) id :=
  ⟨sameFrame_setRegister s _, sortedBy_eraseBy Record.id id, fun h => h, fun _ hx => findBy_eraseBy_other Record.id hx _,
    fun _ _ => rfl⟩

theorem oneChanged_putEntry (s : State) {e : TransferEntry} {id : Ident} (h : e.id = id) : s.OneChanged (s.putEntry e) id :=
  ⟨sameFrame_setEntries s _, fun h => h, sortedBy_putBy TransferEntry.id, fun _ _ => rfl,
    fun _ hx => findBy_putBy_other TransferEntry.id (h ▸ hx) _⟩

theorem oneChanged_eraseEntry (s : State) (id : Ident) : s.OneChanged (s.eraseEntry id) id :=
  ⟨sameFrame_setEntries s _, fun h => h, sortedBy_eraseBy TransferEntry.id id, fun _ _ => rfl,
    fun _ hx => findBy_eraseBy_other TransferEntry.id hx _⟩

theorem find_putRecord_same (s : State) {r : Record} {id : Ident} (h : r.id = id) : (s.putRecord r).find id = some r :=
  h ▸ findBy_putBy_same Record.id r _

theorem find_eraseRecord_same (s : State) (id : Ident) : (s.eraseRecord id).find id = none := findBy_eraseBy_same Record.id id _

theorem entry_putEntry_same (s : State) {e : TransferEntry} {id : Ident} (h : e.id = id) : (s.putEntry e).entry id = some e :=
  h ▸ findBy_putBy_same TransferEntry.id e _

theorem entry_eraseEntry_same (s : State) (id : Ident) : (s.eraseEntry id).entry id = none := findBy_eraseBy_same TransferEntry.id id _

theorem length_eraseBy_le {α : Type} (key : α → Ident) (id : Ident) (l : List α) : (eraseBy key id l).length ≤ l.length :=
  List.length_filter_le _ _

/-- What is asked of the one identifier that a change touches. -/
structure State.OneFits (s t : State) (id : Ident) : Prop where
  fits : s.Fits id (t.find id) (t.entry id)
  capacity : t.transfer.entries.length ≤ 8
  offers : ∀ e, t.entry id = some e → e.isOffered = true → seqCode s.fire.seq < 3 ∨ ∃ e', s.entry id = some e' ∧ e'.isOffered = true
  room : t.custody.register.length ≤ s.custody.register.length ∨
    s.occupancy < 1024 ∧ t.custody.register.length ≤ s.custody.register.length + 1
  configured : s.configured = true ∨ (s.find id = none → t.find id = none)

theorem State.OneChanged.kept {s t : State} {id : Ident} (h : s.OneChanged t id) (k : s.CustodyCore → s.OneFits t id) :
    s.CustodyKept t where
  core hs := by
    obtain ⟨hfits, hcapacity, _, _, hconf⟩ := k hs
    refine h.frame.core hs (h.records hs.records) (h.entries hs.entries) hcapacity (fun x => ?_) (hconf.imp_right fun hid x hx => ?_)
    · by_cases hx : x = id
      · rw [hx]
        exact hfits
      · rw [h.find x hx, h.entry x hx]
        exact hs.fits x
    · by_cases hxid : x = id
      · rw [hxid] at hx ⊢
        exact hid hx
      · rw [h.find x hxid]
        exact hx
  stopped hs hstopped hseq := by
    rw [h.frame.seq] at hseq
    obtain ⟨hsession, hnone⟩ := hstopped hseq
    refine ⟨by rw [h.frame.session]; exact hsession, fun e he => ?_⟩
    have he' := (mem_entries_iff (h.entries hs.entries)).1 he
    by_cases hid : e.id = id
    · rw [hid] at he'
      refine Bool.eq_false_iff.2 fun hoffered => ?_
      rcases (k hs).offers e he' hoffered with hlt | ⟨e', hmem, hoffered'⟩
      · omega
      · rw [hnone e' (findBy_mem TransferEntry.id hmem)] at hoffered'
        cases hoffered'
    · rw [h.entry _ hid] at he'
      exact hnone e (findBy_mem TransferEntry.id he')
  room hs hocc := by
    have hroom := (k hs).room
    rw [State.occupancy] at hocc hroom ⊢
    rw [h.frame.scans]
    omega

/-! ### Records that nothing is tied to -/

/-- A record in none of RESERVED, LOADING and RETURNING: no manifest and no scan list entry names it. -/
def Record.free (r : Record) : Prop := r.st.code ≠ 1 ∧ r.st.code ≠ 2 ∧ r.st.code ≠ 4

theorem free_facts {r : Record} (h : r.free) : r.st.manifest = none ∧ r.inMovement = false ∧
    (∀ intent kind, scanReady intent kind (some r) = false) ∧ ∀ n state, memberReady n state (some r) = false := by
  rcases r with ⟨_, st, _, _, _⟩
  obtain ⟨h1, h2, h4⟩ := h
  cases st with
  | reserved p n => exact absurd rfl h1
  | loading p n => exact absurd rfl h2
  | returning c => exact absurd rfl h4
  | _ => exact ⟨rfl, rfl, fun _ kind => by cases kind <;> rfl, fun _ _ => rfl⟩

/-- A free record, or none, gives way to another free one, or none; where there was none, no UNREGISTERED entry of the scan list may have the
identifier. -/
theorem State.Fits.freed {s : State} {x : Ident} {r r' : Option Record} {e e' : Option TransferEntry} (h : s.Fits x r e)
    (hold : ∀ y, r = some y → y.free) (hnone : r = none → r' = none ∨ ∀ k ∈ s.dock.scans, k.id = x → k.isUnregistered = false)
    (hnew : ∀ y, r' = some y → y.free ∧ y.holdFits s.cfg.ceiling = true) (hpaired : Paired r' e') : s.Fits x r' e' where
  paired := hpaired
  hold y hy := (hnew y hy).2
  ready k hk hid := by
    have hready := h.ready k hk hid
    cases r with
    | some y => rw [(free_facts (hold y rfl)).2.2.1] at hready; cases hready
    | none =>
      rcases hnone rfl with rfl | hreg
      · exact hready
      · have := hreg k hk hid
        unfold scanReady at hready
        unfold ScanEntry.isUnregistered at this
        cases hkind : k.kind with
        | record mismatch => rw [hkind] at hready; cases hready
        | unregistered => rw [hkind] at this; cases this
  listed y hy hmoves := by
    rw [(free_facts (hnew y hy).1).2.1] at hmoves
    cases hmoves
  owner y n hy hn := by
    rw [(free_facts (hnew y hy).1).1] at hn
    cases hn
  member n m hm hx := by
    have hmember := h.member n m hm hx
    cases r with
    | some y => rw [(free_facts (hold y rfl)).2.2.2] at hmember; cases hmember
    | none => cases hmember

end Sys2Proof.Machine

namespace Sys2Proof.Machine

/-! ### Records at rest -/

/-- A record that no manifest, no scan list entry and no transfer entry is tied to. -/
def Record.atRest (r : Record) : Prop := r.free ∧ r.st.code ≠ 7 ∧ r.st.code ≠ 8

theorem atRest_shelved {r : Record} {p : Option Position} (h : r.st = .shelved p) : r.atRest := by
  simp [Record.atRest, Record.free, h, RecState.code]

theorem atRest_conditioning {r : Record} {p : Option Position} {hold : Nat} (h : r.st = .conditioning p hold) : r.atRest := by
  simp [Record.atRest, Record.free, h, RecState.code]

theorem atRest_suspect {r : Record} {p : Option Position} {advised : Option Nat} {reason : SuspectReason}
    (h : r.st = .suspect p advised reason) : r.atRest := by
  simp [Record.atRest, Record.free, h, RecState.code]

theorem atRest_out {r : Record} {c : CaseField} (h : r.st = .out c) : r.atRest := by
  simp [Record.atRest, Record.free, h, RecState.code]

theorem free_transferring {r : Record} {p : PeerField} {restore : Restore} (h : r.st = .transferring p restore) : r.free := by
  simp [Record.free, h, RecState.code]

theorem free_inbound {r : Record} {p : PeerField} {carried : Option Nat} (h : r.st = .inbound p carried) : r.free := by
  simp [Record.free, h, RecState.code]

/-- A record in neither TRANSFERRING nor INBOUND is paired with no entry. -/
theorem paired_some_iff {r : Record} (h7 : r.st.code ≠ 7) (h8 : r.st.code ≠ 8) (e : Option TransferEntry) :
    Paired (some r) e ↔ e = none := by
  rcases r with ⟨_, st, _, _, _⟩
  cases st with
  | transferring => exact absurd rfl h7
  | inbound => exact absurd rfl h8
  | _ => exact Iff.rfl

theorem Record.atRest.paired {r : Record} (h : r.atRest) (e : Option TransferEntry) : Paired (some r) e ↔ e = none :=
  paired_some_iff h.2.1 h.2.2 e

section
variable {s : State}

/-- The record that a transfer entry of the table belongs to. -/
theorem record_of_entry {x : Ident} {e : TransferEntry} (hs : s.CustodyCore) (he : s.entry x = some e) : ∃ r, s.find x = some r ∧
    ((∃ p restore, r.st = .transferring p restore ∧ e.direction = .out ∧ e.peer = p.station ∧ e.number = p.number) ∨
      ∃ p carried, r.st = .inbound p carried ∧ e.direction = .in_ ∧ e.peer = p.station ∧ e.number = p.number) := by
  have hp := (hs.fits x).paired
  rw [he] at hp
  cases hr : s.find x with
  | none => rw [hr] at hp; cases hp
  | some r =>
    rw [hr] at hp
    refine ⟨r, rfl, ?_⟩
    unfold Paired at hp
    dsimp only at hp
    split at hp
    · rename_i p restore hst
      obtain ⟨y, hy, hrest⟩ := hp
      cases hy
      exact .inl ⟨p, restore, hst, hrest⟩
    · rename_i p carried hst
      obtain ⟨y, hy, hrest⟩ := hp
      cases hy
      exact .inr ⟨p, carried, hst, hrest⟩
    · cases hp

/-- The record of an entry is tied to no manifest and no scan list entry. -/
theorem free_of_entry {x : Ident} {e : TransferEntry} (hs : s.CustodyCore) (he : s.entry x = some e) (y : Record)
    (hy : s.find x = some y) : y.free := by
  obtain ⟨r, hr, ⟨p, restore, hst, _⟩ | ⟨p, carried, hst, _⟩⟩ := record_of_entry hs he
  · rw [hr] at hy
    cases hy
    exact free_transferring hst
  · rw [hr] at hy
    cases hy
    exact free_inbound hst

/-- The record of an OUT entry is TRANSFERRING. -/
theorem transferring_of_entry {x : Ident} {e : TransferEntry} (hs : s.CustodyCore) (he : s.entry x = some e) (hd : e.direction = .out) :
    ∃ r p restore, s.find x = some r ∧ r.st = .transferring p restore := by
  obtain ⟨r, hr, ⟨p, restore, hst, _⟩ | ⟨p, carried, hst, hin, _⟩⟩ := record_of_entry hs he
  · exact ⟨r, p, restore, hr, hst⟩
  · rw [hin] at hd
    cases hd

/-- A record at rest has no transfer entry. -/
theorem entry_of_atRest {x : Ident} {r : Record} (hs : s.CustodyCore) (hr : s.find x = some r) (h : r.atRest) : s.entry x = none := by
  have hp := (hs.fits x).paired
  rwa [hr, h.paired] at hp

theorem no_entry_of_none {x : Ident} (hs : s.CustodyCore) (hr : s.find x = none) : s.entry x = none := by
  have hp := (hs.fits x).paired
  rwa [hr] at hp

/-- An identifier that is not known has no record and no UNREGISTERED scan list entry. -/
theorem known_eq_false {x : Ident} (h : s.known x = false) :
    s.find x = none ∧ ∀ k ∈ s.dock.scans, k.id = x → k.isUnregistered = false := by
  simp only [State.known, Bool.or_eq_false_iff, Option.isSome_eq_false_iff, Option.isNone_iff_eq_none, List.any_eq_false,
    Bool.and_eq_true, decide_eq_true_eq, not_and] at h
  exact ⟨h.1, fun k hk hid => Bool.eq_false_iff.2 fun hu => h.2 k hk hu hid⟩

/-- The restore hold of a TRANSFERRING record, and what it is restored to, lie in their range. -/
theorem restore_hold_fits {ceiling : Nat} {r : Record} {p : PeerField} {restore : Restore} (hst : r.st = .transferring p restore)
    (h : r.holdFits ceiling = true) : ∀ hold, restore.hold = some hold → 1 ≤ hold ∧ hold ≤ ceiling := by
  intro hold hh
  simpa [Record.holdFits, hst, hh] using h

theorem holdFits_back {ceiling : Nat} {restore : Restore} {r : Record} (hst : r.st = restore.back ceiling)
    (h : ∀ hold, restore.hold = some hold → 1 ≤ hold ∧ hold ≤ ceiling) : r.atRest ∧ r.holdFits ceiling = true := by
  rcases restore with ⟨st, position⟩
  cases st with
  | shelved => exact ⟨atRest_shelved hst, by rw [Record.holdFits, hst]; rfl⟩
  | conditioning hold =>
    refine ⟨atRest_conditioning hst, ?_⟩
    have := h hold rfl
    rw [Record.holdFits, hst]
    simp only [Restore.back, Bool.and_eq_true, decide_eq_true_eq]
    omega

/-- A record is found under the identifier it keeps as it enters another state. -/
theorem found_entered {x : Ident} {r : Record} (h : s.find x = some r) (st : RecState) (minute : Nat) :
    s.find (r.enter st minute).id = some r := by
  have hid : r.id = x := findBy_key Record.id h
  exact hid ▸ h

/-! ### Requests on single records -/

/-- A record at rest put in place of one at rest. -/
theorem kept_putRest {x y : Record} (hx : s.find y.id = some x) (hxrest : x.atRest) (hyrest : y.atRest)
    (hhold : s.CustodyCore → y.holdFits s.cfg.ceiling = true) : s.CustodyKept (s.putRecord y) := by
  refine (oneChanged_putRecord s rfl).kept fun hs => ⟨?_, hs.capacity, fun e he hoffered => .inr ⟨e, he, hoffered⟩, .inl ?_, .inr ?_⟩
  · rw [find_putRecord_same s rfl]
    refine (hs.fits y.id).freed (fun z hz => ?_) (fun hnone => ?_) (fun z hz => ?_) ?_
    · rw [hx] at hz
      cases hz
      exact hxrest.1
    · rw [hx] at hnone
      cases hnone
    · cases hz
      exact ⟨hyrest.1, hhold hs⟩
    · exact (hyrest.paired _).2 (entry_of_atRest (s := s) hs hx hxrest)
  · exact Nat.le_of_eq (length_putBy_of_found Record.id hs.records hx)
  · intro hnone
    rw [hx] at hnone
    cases hnone

/-- A record at rest deleted. -/
theorem kept_eraseRest {id : Ident} {x : Record} (hx : s.find id = some x) (hxrest : x.atRest) : s.CustodyKept (s.eraseRecord id) := by
  refine (oneChanged_eraseRecord s id).kept fun hs => ⟨?_, hs.capacity, fun e he hoffered => .inr ⟨e, he, hoffered⟩, .inl ?_, .inr ?_⟩
  · rw [find_eraseRecord_same]
    refine (hs.fits id).freed (fun z hz => ?_) (fun _ => .inl rfl) (fun z hz => ?_) (entry_of_atRest (s := s) hs hx hxrest)
    · rw [hx] at hz
      cases hz
      exact hxrest.1
    · cases hz
  · exact length_eraseBy_le _ _ _
  · exact fun _ => find_eraseRecord_same s id

/-- A record at rest created under an identifier that was not known, while there is room. -/
theorem kept_createRest {y : Record} (hunknown : s.known y.id = false) (hroom : s.occupancy < 1024) (hconf : s.configured = true)
    (hyrest : y.atRest) (hhold : y.holdFits s.cfg.ceiling = true) : s.CustodyKept (s.putRecord y) := by
  obtain ⟨hnone, hreg⟩ := known_eq_false hunknown
  refine (oneChanged_putRecord s rfl).kept fun hs => ⟨?_, hs.capacity, fun e he hoffered => .inr ⟨e, he, hoffered⟩,
    .inr ⟨hroom, length_putBy_le Record.id _ _⟩, .inl hconf⟩
  rw [find_putRecord_same s rfl]
  refine (hs.fits y.id).freed (fun z hz => ?_) (fun _ => .inr hreg) (fun z hz => ?_) ((hyrest.paired _).2 (no_entry_of_none (s := s) hs hnone))
  · rw [hnone] at hz
    cases hz
  · cases hz
    exact ⟨hyrest.1, hhold⟩

theorem kept_enrolReply (r : Request) (hc : s.configured = true) : s.CustodyKept (enrolReply r s).state := by
  unfold enrolReply
  dsimp only
  split
  · split
    · exact .refl s
    · split
      · exact .refl s
      · rename_i hknown hroom
        exact kept_createRest (Bool.eq_false_iff.2 hknown) (Nat.lt_of_not_le hroom) hc (atRest_shelved rfl) rfl
  · exact .refl s

theorem kept_retireReply (r : Request) : s.CustodyKept (retireReply r s).state := by
  unfold retireReply
  dsimp only
  split
  · split
    · exact .refl s
    · rename_i x hx
      split
      · rename_i p hst
        exact kept_eraseRest hx (atRest_shelved hst)
      · exact .refl s
  · exact .refl s

/-- A transfer that ends: the record of an entry gives way to one at rest, or to none, and the entry is freed. -/
theorem State.OneChanged.kept_ended {t : State} {x : Ident} {e : TransferEntry} (h : s.OneChanged t x) (he : s.entry x = some e)
    (hentry : t.entry x = none) (hentries : t.transfer.entries.length ≤ s.transfer.entries.length)
    (hnew : s.CustodyCore → ∀ y, t.find x = some y → y.atRest ∧ y.holdFits s.cfg.ceiling = true)
    (hlength : s.CustodyCore → t.custody.register.length ≤ s.custody.register.length) : s.CustodyKept t := by
  refine h.kept fun hs => ?_
  obtain ⟨r, hr, _⟩ := record_of_entry hs he
  refine ⟨?_, Nat.le_trans hentries hs.capacity, fun e' he' _ => ?_, .inl (hlength hs), .inr fun hnone => ?_⟩
  · refine (hs.fits x).freed (free_of_entry hs he) (fun hnone => ?_) (fun y hy => ?_) ?_
    · rw [hr] at hnone
      cases hnone
    · obtain ⟨hrest, hhold⟩ := hnew hs y hy
      exact ⟨hrest.1, hhold⟩
    · rw [hentry]
      cases hy : t.find x with
      | none => rfl
      | some y => exact ((hnew hs y hy).1.paired _).2 rfl
  · rw [hentry] at he'
    cases he'
  · rw [hr] at hnone
    cases hnone

/-- The record of an entry put back at rest, and the entry freed. -/
theorem kept_putEnded {x : Ident} {r y : Record} {e : TransferEntry} (he : s.entry x = some e) (hr : s.find x = some r) (hid : y.id = x)
    (hnew : s.CustodyCore → y.atRest ∧ y.holdFits s.cfg.ceiling = true) : s.CustodyKept ((s.putRecord y).eraseEntry x) := by
  subst hid
  refine ((oneChanged_putRecord s rfl).trans (oneChanged_eraseEntry _ y.id)).kept_ended he (entry_eraseEntry_same _ _)
    (length_eraseBy_le _ _ _) (fun hs z hz => ?_) (fun hs => Nat.le_of_eq (length_putBy_of_found Record.id hs.records hr))
  have : some y = some z := (find_putRecord_same s rfl).symm.trans hz
  cases this
  exact hnew hs

theorem kept_dropCartridge {e : TransferEntry} (he : s.entry e.id = some e) (o : TransferOutcome) : s.CustodyKept (s.dropCartridge e o) := by
  refine (still_emit _ _).kept.after (((oneChanged_eraseRecord s e.id).trans (oneChanged_eraseEntry _ e.id)).kept_ended he
    (entry_eraseEntry_same _ _) (length_eraseBy_le _ _ _) (fun _ z hz => ?_) (fun _ => length_eraseBy_le _ _ _))
  have : none = some z := (find_eraseRecord_same s e.id).symm.trans hz
  cases this

theorem kept_completeArrival {x : Record} {id : Ident} {peer : PeerField} {carried : Option Nat} (hx : s.find id = some x)
    (hst : x.st = .inbound peer carried) (p : Position) (hroom : s.peerRoom = true) : s.CustodyKept (s.completeArrival x peer carried p) := by
  have hid : x.id = id := findBy_key Record.id hx
  subst hid
  refine .of_core fun hs => ?_
  obtain ⟨e, he⟩ : ∃ e, s.entry x.id = some e := by
    have hp := (hs.fits x.id).paired
    rw [hx] at hp
    simp only [Paired, hst] at hp
    obtain ⟨e, he, _⟩ := hp
    exact ⟨e, he⟩
  have hhold := (hs.fits x.id).hold x hx
  refine (still_queuePeer _ _ ?_).kept.after (kept_putEnded he hx rfl fun hs => ?_)
  · exact hroom
  · cases carried with
    | none => exact ⟨atRest_shelved rfl, rfl⟩
    | some hold =>
      refine ⟨atRest_conditioning rfl, ?_⟩
      have hc := hs.ceiling
      simp only [Record.holdFits, hst, decide_eq_true_eq] at hhold
      simp only [Record.enter, Record.holdFits, Bool.and_eq_true, decide_eq_true_eq]
      omega

theorem kept_shelveReply (r : Request) : s.CustodyKept (shelveReply r s).state := by
  unfold shelveReply
  dsimp only
  split
  · split
    · exact .refl s
    · rename_i x hx
      have hid : x.id = slice (requestFields r.payload) 0 10 := findBy_key Record.id hx
      rw [← hid] at hx
      have hhold (hs : s.CustodyCore) := (hs.fits x.id).hold x hx
      split
      · rename_i hst
        exact kept_putRest hx (atRest_shelved hst) (atRest_shelved rfl) fun _ => rfl
      · rename_i hst
        refine kept_putRest hx (atRest_conditioning hst) (atRest_conditioning rfl) fun hs => ?_
        have := hhold hs
        rwa [Record.holdFits, hst] at this
      · rename_i p advised reason hst
        refine kept_putRest hx (atRest_suspect hst) (atRest_suspect rfl) fun hs => ?_
        have := hhold hs
        rw [Record.holdFits, hst] at this
        cases advised <;> exact this
      · rename_i hst
        split
        · rename_i hroom
          exact kept_completeArrival hx hst _ hroom
        · exact .refl s
      · exact .refl s
  · exact .refl s

theorem kept_queryRecordReply (r : Request) : s.CustodyKept (queryRecordReply r s).state := by
  unfold queryRecordReply
  dsimp only
  split
  · split <;> exact .refl s
  · exact .refl s

/-- A disposition keeps custody where it does so on a SUSPECT record. -/
theorem kept_releaseChecked (r : Request) {go : ReleaseFields → Record → Option Position → Option Nat → Reply}
    (h : ∀ f x position advised reason, s.find f.id = some x → x.st = .suspect position advised reason →
      s.CustodyKept (go f x position advised).state) : s.CustodyKept (releaseChecked r s go).state := by
  unfold releaseChecked
  dsimp only
  split
  · split
    · exact .refl s
    · rename_i x hx
      split
      · rename_i position advised reason hst
        exact h _ x position advised reason hx hst
      · exact .refl s
  · exact .refl s

theorem kept_releaseShelveReply (r : Request) : s.CustodyKept (releaseShelveReply r s).state := by
  refine kept_releaseChecked r fun f x position advised reason hx hst => ?_
  split
  · exact .refl s
  · exact kept_putRest (found_entered hx _ _) (atRest_suspect hst) (atRest_shelved rfl) fun _ => rfl

theorem kept_releaseConditionReply (r : Request) : s.CustodyKept (releaseConditionReply r s).state := by
  refine kept_releaseChecked r fun f x position advised reason hx hst => ?_
  dsimp only [State.doneReply]
  split
  · exact kept_putRest (found_entered hx _ _) (atRest_suspect hst) (atRest_shelved rfl) fun _ => rfl
  · rename_i hpos
    refine kept_putRest (found_entered hx _ _) (atRest_suspect hst) (atRest_conditioning rfl) fun _ => ?_
    simp only [Record.enter, Record.holdFits, Bool.and_eq_true, decide_eq_true_eq]
    omega

theorem kept_releaseRemoveReply (r : Request) : s.CustodyKept (releaseRemoveReply r s).state :=
  kept_releaseChecked r fun _ _ _ _ _ hx hst => kept_eraseRest hx (atRest_suspect hst)

end

end Sys2Proof.Machine

namespace Sys2Proof.Machine

/-! ### Transfers -/

section
variable {s : State}

theorem inAlarm_lt {q : Seq} (h : ¬q.inAlarm = true) : seqCode q < 3 := by
  have := mt (inAlarm_iff q).2 h
  omega

theorem holdFits_suspect {r : Record} {p : Option Position} {advised : Option Nat} {reason : SuspectReason} {ceiling : Nat}
    (hst : r.st = .suspect p advised reason) (h : ∀ hold, advised = some hold → 1 ≤ hold ∧ hold ≤ ceiling) :
    r.holdFits ceiling = true := by
  rw [Record.holdFits, hst]
  cases advised with
  | none => rfl
  | some hold => simpa using h hold rfl

/-- The transfer number does not enter the invariant. -/
theorem oneChanged_setNumber (s : State) (n : Nat) (id : Ident) : s.OneChanged (s.withTransfer { s.transfer with number := n }) id :=
  ⟨⟨rfl, rfl, rfl, rfl, rfl, rfl, fun _ h => h, rfl⟩, fun h => h, fun h => h, fun _ _ => rfl, fun _ _ => rfl⟩

theorem key_of_find {x : Ident} {r : Record} (h : s.find x = some r) : r.id = x := findBy_key Record.id h

/-- The restore field of a record is that of a record at rest, and its hold is the record's. -/
theorem restoreField_facts {r : Record} {restore : Restore} {ceiling : Nat} (h : r.restoreField = some restore) :
    r.atRest ∧ (r.holdFits ceiling = true → ∀ minute peer, (r.enter (.transferring peer restore) minute).holdFits ceiling = true) := by
  unfold Record.restoreField at h
  split at h
  · rename_i p hst
    cases h
    exact ⟨atRest_shelved hst, fun _ _ _ => rfl⟩
  · rename_i p hold hst
    cases h
    refine ⟨atRest_conditioning hst, fun hh _ _ => ?_⟩
    rwa [Record.holdFits, hst] at hh
  · cases h

theorem kept_beginMove {r : Record} {restore : Restore} {id : Ident} (hr : s.find id = some r) (hrestore : r.restoreField = some restore)
    (hseq : seqCode s.fire.seq < 3) (hcap : s.transfer.entries.length < 8) (hroom : s.peerRoom = true) (dest : Nat) :
    s.CustodyKept (s.beginMove r restore dest) := by
  have hid : r.id = id := findBy_key Record.id hr
  subst hid
  obtain ⟨hrest, hhold⟩ := restoreField_facts (ceiling := s.cfg.ceiling) hrestore
  unfold State.beginMove
  refine (still_queuePeer _ _ ?_).kept.after ?_
  · exact hroom
  have hfind : ((s.withTransfer { s.transfer with number := (s.transfer.number + 1) % 256 }).putRecord
      (r.enter (.transferring ⟨dest, (s.transfer.number + 1) % 256⟩ restore) s.minute)).find r.id =
        some (r.enter (.transferring ⟨dest, (s.transfer.number + 1) % 256⟩ restore) s.minute) := find_putRecord_same _ rfl
  refine State.OneChanged.kept (id := r.id)
    ((oneChanged_putEntry _ ?_).after ((oneChanged_putRecord _ ?_).after (oneChanged_setNumber s _ r.id))) fun hs => ?_
  · rfl
  · rfl
  refine ⟨?_, Nat.le_trans (length_putBy_le TransferEntry.id _ _) hcap, fun _ _ _ => .inl hseq, .inl ?_, .inr fun hnone => ?_⟩
  · rw [entry_putEntry_same _ rfl]
    refine (hs.fits r.id).freed (fun z hz => ?_) (fun hnone => ?_) (fun z hz => ?_) ?_
    · rw [hr] at hz
      cases hz
      exact hrest.1
    · rw [hr] at hnone
      cases hnone
    · have := hfind.symm.trans hz
      cases this
      exact ⟨free_transferring rfl, hhold ((hs.fits r.id).hold r hr) _ _⟩
    · refine hfind ▸ ?_
      exact ⟨_, rfl, rfl, rfl, rfl⟩
  · exact Nat.le_of_eq (length_putBy_of_found Record.id hs.records hr)
  · rw [hr] at hnone
    cases hnone

theorem kept_moveReply (r : Request) : s.CustodyKept (moveReply r s).state := by
  unfold moveReply
  dsimp only
  split
  · exact .refl s
  split
  · exact .refl s
  rename_i halarm
  split
  · exact .refl s
  rename_i x hx
  split
  · exact .refl s
  rename_i restore hrestore
  split
  · exact .refl s
  split
  · exact .refl s
  split
  · exact .refl s
  rename_i hcap
  split
  · exact .refl s
  rename_i hroom
  exact kept_beginMove hx hrestore (inAlarm_lt halarm) (Nat.lt_of_not_le hcap) (by simpa using hroom) _

theorem heldFor_fits (o : OfferFields) (ceiling minute : Nat) (peer : PeerField) :
    (⟨o.id, .inbound peer o.heldFor, o.exposed, false, minute⟩ : Record).holdFits ceiling = true := by
  unfold OfferFields.heldFor
  split
  · rename_i h
    simp only [Record.holdFits, decide_eq_true_eq]
    exact Nat.pos_of_ne_zero h.2
  · rfl

/-- An inbound transfer begins only where the identifier is not known and both tables have room. -/
theorem declineReason_eq_none {o : OfferFields} (h : s.declineReason o = none) :
    s.known o.id = false ∧ s.occupancy < 1024 ∧ s.transfer.entries.length < 8 := by
  unfold State.declineReason at h
  split at h
  · cases h
  split at h
  · cases h
  split at h
  · cases h
  rename_i hknown
  split at h
  · cases h
  rename_i hocc
  split at h
  · cases h
  rename_i hcap
  exact ⟨Bool.eq_false_iff.2 hknown, Nat.lt_of_not_le hocc, Nat.lt_of_not_le hcap⟩

theorem kept_beginInbound {o : OfferFields} (h : s.declineReason o = none) (hc : s.configured = true) (hroom : s.peerRoom = true)
    (sender : Nat) : s.CustodyKept (s.beginInbound o sender) := by
  obtain ⟨hknown, hocc, hcap⟩ := declineReason_eq_none h
  obtain ⟨hnone, hreg⟩ := known_eq_false hknown
  unfold State.beginInbound
  refine (still_queuePeer _ _ ?_).kept.after ?_
  · exact hroom
  refine ((oneChanged_putRecord s rfl).trans (oneChanged_putEntry _ rfl)).kept fun hs => ?_
  refine ⟨?_, Nat.le_trans (length_putBy_le TransferEntry.id _ _) hcap, fun e he hoffered => ?_,
    .inr ⟨hocc, length_putBy_le Record.id _ _⟩, .inl hc⟩
  · rw [entry_putEntry_same _ rfl]
    refine (hs.fits o.id).freed (fun z hz => ?_) (fun _ => .inr hreg) (fun z hz => ?_) ?_
    · rw [hnone] at hz
      cases hz
    · have : some _ = some z := (find_putRecord_same s rfl).symm.trans hz
      cases this
      exact ⟨free_inbound rfl, heldFor_fits _ _ _ _⟩
    · refine (find_putRecord_same s (r := ⟨o.id, .inbound ⟨sender, o.number⟩ o.heldFor, o.exposed, false, s.minute⟩) rfl) ▸ ?_
      exact ⟨_, rfl, rfl, rfl, rfl⟩
  · rw [entry_putEntry_same _ rfl] at he
    cases he
    cases hoffered

/-- An entry given another state of its own direction, and not made OFFERED. -/
theorem kept_entryState {e e' : TransferEntry} {x : Ident} (he : s.entry x = some e) (hid : e'.id = e.id) (hd : e'.direction = e.direction)
    (hpeer : e'.peer = e.peer) (hn : e'.number = e.number) (hoffered : e'.isOffered = true → e.isOffered = true) :
    s.CustodyKept (s.putEntry e') := by
  have hx : e.id = x := findBy_key TransferEntry.id he
  subst hx
  refine (oneChanged_putEntry s hid).kept fun hs => ⟨?_, ?_, fun y hy hoff => .inr ⟨e, he, ?_⟩, .inl (Nat.le_refl _), .inr id⟩
  · rw [entry_putEntry_same s hid]
    obtain ⟨_, hhold, hready, hlisted, howner, hmember⟩ := hs.fits e.id
    refine ⟨?_, hhold, hready, hlisted, howner, hmember⟩
    change Paired (s.find e.id) (some e')
    obtain ⟨r, hr, ⟨p, restore, hst, hk⟩ | ⟨p, carried, hst, hk⟩⟩ := record_of_entry hs he
    · rw [hr]
      simp only [Paired, hst]
      exact ⟨e', rfl, by rw [hd, hpeer, hn]; exact hk⟩
    · rw [hr]
      simp only [Paired, hst]
      exact ⟨e', rfl, by rw [hd, hpeer, hn]; exact hk⟩
  · refine Nat.le_trans (Nat.le_of_eq ?_) hs.capacity
    exact length_putBy_of_found TransferEntry.id hs.entries (by rw [hid]; exact he)
  · rw [entry_putEntry_same s hid] at hy
    cases hy
    exact hoffered hoff

/-- The record of an OUT entry goes back, and the entry is freed (R150). -/
theorem kept_restored {e : TransferEntry} (he : s.entry e.id = some e) (hd : e.direction = .out) :
    s.CustodyKept ((s.restoreRecord e.id).eraseEntry e.id) := by
  refine .of_core fun hs => ?_
  obtain ⟨r, p, restore, hr, hst⟩ := transferring_of_entry hs he hd
  rw [restoreRecord_of_transferring hr hst]
  exact kept_putEnded he hr (key_of_find hr :) fun hs =>
    holdFits_back rfl (restore_hold_fits hst ((hs.fits e.id).hold r hr))

theorem kept_keepCartridge {e : TransferEntry} (he : s.entry e.id = some e) (hd : e.direction = .out) (o : TransferOutcome)
    (reason : Option Byte) : s.CustodyKept (s.keepCartridge e o reason) :=
  (still_emit _ _).kept.after (kept_restored he hd)

theorem kept_expireTransit {e : TransferEntry} (he : s.entry e.id = some e) (hd : e.direction = .out) :
    s.CustodyKept (s.expireTransit e) := by
  refine .of_core fun hs => ?_
  obtain ⟨r, p, restore, hr, hst⟩ := transferring_of_entry hs he hd
  have hlost : loseRecord .transitLost s.minute r = r.enter (.suspect none restore.hold .transitLost) s.minute := by
    simp only [loseRecord, hst]
  unfold State.expireTransit
  rw [hr]
  dsimp only
  rw [hlost]
  refine (still_emitAll _ _).kept.after (kept_putEnded he hr (key_of_find hr :) fun hs => ⟨atRest_suspect rfl, ?_⟩)
  exact holdFits_suspect rfl (restore_hold_fits hst ((hs.fits e.id).hold r hr))

theorem matching_eq_some {d : Direction} {sender number : Nat} {id : Ident} {e : TransferEntry}
    (h : s.matching d sender number id = some e) : s.entry id = some e ∧ e.direction = d := by
  unfold State.matching at h
  split at h
  · cases h
  · rename_i y hy
    split at h
    · rename_i hm
      cases h
      exact ⟨hy, hm.1⟩
    · cases h

theorem entry_own {x : Ident} {e : TransferEntry} (h : s.entry x = some e) : s.entry e.id = some e :=
  (findBy_key TransferEntry.id h : e.id = x) ▸ h

theorem kept_takeOffer (m : PeerIn) (hroom : s.peerRoom = true) (hc : s.configured = true) : s.CustodyKept (takeOffer m s) := by
  unfold takeOffer
  split
  · exact .refl s
  · split
    · exact (still_queuePeer _ _ hroom).kept
    · rename_i hd
      exact kept_beginInbound hd hc hroom _

theorem kept_takeTake (m : PeerIn) (hroom : s.peerRoom = true) : s.CustodyKept (takeTake m s) := by
  unfold takeTake
  split
  · exact .refl s
  · split
    · exact (still_queuePeer _ _ hroom).kept
    · rename_i e hm
      obtain ⟨he, hd⟩ := matching_eq_some hm
      split
      · exact kept_entryState he rfl hd.symm rfl rfl (fun h => nomatch h)
      · exact .refl s

theorem kept_takeDecline (m : PeerIn) : s.CustodyKept (takeDecline m s) := by
  unfold takeDecline
  split
  · exact .refl s
  · split
    · exact .refl s
    · rename_i e hm
      obtain ⟨he, hd⟩ := matching_eq_some hm
      exact .ite (fun _ => kept_keepCartridge (entry_own he) hd _ _) fun _ => .refl s

theorem kept_takeWithdraw (m : PeerIn) : s.CustodyKept (takeWithdraw m s) := by
  unfold takeWithdraw
  split
  · exact .refl s
  · split
    · exact .refl s
    · rename_i e hm
      exact kept_dropCartridge (entry_own (matching_eq_some hm).1) _

theorem kept_lateArrived (id : Ident) (sender number : Nat) : s.CustodyKept (s.lateArrived id sender number) := by
  unfold State.lateArrived
  split
  · exact .refl s
  · rename_i r hr
    split
    · rename_i hst
      exact (still_emit _ _).kept.after (kept_eraseRest hr (atRest_suspect hst))
    · exact .refl s

theorem kept_takeArrived (m : PeerIn) : s.CustodyKept (takeArrived m s) := by
  unfold takeArrived
  split
  · exact .refl s
  · split
    · exact kept_lateArrived _ _ _
    · rename_i e hm
      exact .ite (fun _ => kept_lateArrived _ _ _) fun _ => kept_dropCartridge (entry_own (matching_eq_some hm).1) _

/-- Until it is CONFIGURED a station has no transfer message waiting, so none is taken. -/
theorem configured_of_peerIn {m : PeerIn} {rest : List PeerIn} (hs : s.CustodyCore) (h : s.line.peerIn = m :: rest) : s.configured = true := by
  rcases hs.configured with hc | ⟨_, _, hempty⟩
  · exact hc
  · rw [hempty] at h
    cases h

theorem sameFrame_popPeer (s : State) : s.SameFrame s.popPeer :=
  ⟨rfl, rfl, rfl, rfl, rfl, rfl, fun _ h => by rw [State.popPeer, State.withLine_line, h]; rfl, rfl⟩

theorem kept_popPeer (s : State) : s.CustodyKept s.popPeer where
  core hs := (sameFrame_popPeer s).core hs hs.records hs.entries hs.capacity hs.fits (.inr fun _ => id)
  stopped _ h := h
  room _ h := h

theorem kept_takePeer (kind : PeerKind) {act : PeerIn → State → State}
    (h : ∀ (m : PeerIn) (t : State), t.peerRoom = true → t.configured = true → t.CustodyKept (act m t)) :
    s.CustodyKept (s.takePeer kind act) := by
  refine .of_core fun hs => ?_
  unfold State.takePeer
  split
  · rename_i hroom
    split
    · exact .refl s
    · rename_i m rest hin
      exact .ite (fun _ => .ite (fun _ => (h m s.popPeer hroom (configured_of_peerIn (s := s) hs hin)).after (kept_popPeer s))
        fun _ => kept_popPeer s) fun _ => .refl s
  · exact .refl s

theorem entryNumbered_eq_some {id : Ident} {number : Nat} {e : TransferEntry} (h : s.entryNumbered id number = some e) :
    s.entry id = some e := by
  unfold State.entryNumbered at h
  split at h
  · cases h
  · rename_i y hy
    split at h
    · cases h
      exact hy
    · cases h

theorem kept_offerOutcome (id : Ident) (number : Nat) (o : SendOutcome) : s.CustodyKept (s.offerOutcome id number o) := by
  unfold State.offerOutcome
  split
  · exact .refl s
  · rename_i e hn
    have he := entryNumbered_eq_some hn
    split
    · rename_i hst
      exact kept_entryState he rfl (direction_of_offered hst).symm rfl rfl fun _ => (isOffered_iff e).2 ⟨none, hst⟩
    · rename_i hst
      exact kept_keepCartridge (entry_own he) (direction_of_offered hst) _ _
    · rename_i hst
      exact kept_keepCartridge (entry_own he) (direction_of_offered hst) _ _
    · exact .refl s

theorem kept_peerOutcome (m : PeerOut) (o : SendOutcome) : s.CustodyKept (s.peerOutcome m o) := by
  unfold State.peerOutcome
  split
  · exact kept_offerOutcome _ _ _
  · exact .refl s
  · unfold State.takeUndelivered
    split
    · exact .refl s
    · rename_i e hm
      exact kept_dropCartridge (entry_own (matching_eq_some hm).1) _
  · exact .refl s
  · exact (still_emit _ _).kept
  · exact .refl s
  · exact .refl s

theorem kept_offerWaitEnds (id : Ident) : s.CustodyKept (s.offerWaitEnds id) := by
  unfold State.offerWaitEnds
  split
  · exact .refl s
  · rename_i e he
    split
    · rename_i hst
      exact kept_keepCartridge (entry_own he) (direction_of_offered hst) _ _
    · exact .refl s

theorem direction_of_overdue {e : TransferEntry} (h : e.overdue = true) : e.direction = .out := by
  unfold TransferEntry.overdue at h
  unfold TransferEntry.direction
  split at h
  · rename_i hst
    rw [hst]
  · cases h
  · cases h

theorem kept_transitLimitEnds (id : Ident) : s.CustodyKept (s.transitLimitEnds id) := by
  unfold State.transitLimitEnds
  split
  · exact .refl s
  · rename_i e he
    exact .ite (fun hd => kept_expireTransit (entry_own he) (direction_of_overdue hd)) fun _ => .refl s

theorem kept_inboundTransitEnds (id : Ident) : s.CustodyKept (s.inboundTransitEnds id) := by
  unfold State.inboundTransitEnds
  split
  · exact .refl s
  · rename_i e he
    exact .ite (fun _ => kept_dropCartridge (entry_own he) _) fun _ => .refl s

/-- An entry drawn from the table's due entries is found under its identifier. -/
theorem entry_of_due {due : TransferEntry → Bool} {e : TransferEntry} (hs : s.CustodyCore) (h : e ∈ s.transfer.entries.filter due) :
    s.entry e.id = some e ∧ due e = true := by
  obtain ⟨hmem, hdue⟩ := List.mem_filter.1 h
  exact ⟨(mem_entries_iff hs.entries).1 hmem, hdue⟩

theorem kept_expireOneTransit (s : State) : s.CustodyKept s.expireOneTransit := by
  refine .of_core fun hs => ?_
  unfold State.expireOneTransit
  obtain ⟨e, t, ht, hmem, n, rfl⟩ | ⟨hnone, _⟩ := choose_due s (s.transfer.entries.filter TransferEntry.overdue)
  · obtain ⟨he, hdue⟩ := entry_of_due hs hmem
    rw [ht]
    exact (kept_expireTransit (s := s.withFree n) he (direction_of_overdue hdue)).after (still_withFree s n).kept
  · rw [hnone]
    exact .refl s

theorem kept_abandonOne (s : State) : s.CustodyKept s.abandonOne := by
  refine .of_core fun hs => ?_
  unfold State.abandonOne
  obtain ⟨e, t, ht, hmem, n, rfl⟩ | ⟨hnone, _⟩ := choose_due s (s.transfer.entries.filter TransferEntry.abandoned)
  · rw [ht]
    exact (kept_dropCartridge (s := s.withFree n) (entry_of_due hs hmem).1 _).after (still_withFree s n).kept
  · rw [hnone]
    exact .refl s

end

end Sys2Proof.Machine

namespace Sys2Proof.Machine

/-! ### Whole tables -/

section
variable {s : State}

/-- A change of every record that keeps the identifiers and leaves each as its identifier needs it. -/
theorem kept_mapRegister {f : Record → Record} (hid : ∀ r, (f r).id = r.id)
    (hf : s.CustodyCore → ∀ x r, s.find x = some r → s.Fits x (some r) (s.entry x) → s.Fits x (some (f r)) (s.entry x)) :
    s.CustodyKept (s.setRegister (s.custody.register.map f)) where
  core hs := by
    have hfind (x : Ident) : (s.setRegister (s.custody.register.map f)).find x = (s.find x).map f := findBy_map Record.id f hid x _
    refine (sameFrame_setRegister s _).core hs (sortedBy_map Record.id f hid hs.records) hs.entries hs.capacity (fun x => ?_)
      (.inr fun x hx => by rw [hfind, hx]; rfl)
    rw [hfind]
    cases hx : s.find x with
    | none =>
      have hfits := hs.fits x
      rw [hx] at hfits
      exact hfits
    | some r => exact hf hs x r hx (hx ▸ hs.fits x)
  stopped _ h := h
  room _ h := by
    simpa [State.occupancy, State.setRegister, State.withCustody] using h

theorem lowerHold_id (minute : Nat) (r : Record) : (lowerHold minute r).id = r.id := by
  unfold lowerHold
  split
  · split <;> rfl
  · rfl

theorem kept_rollover (s : State) : s.CustodyKept s.rollover := by
  refine (still_emitAll _ _).kept.after (State.CustodyKept.after (kept_mapRegister (lowerHold_id s.minute) fun hs x r hx hfits => ?_)
    (still_withConditioning s ⟨0⟩ fun _ => Nat.zero_le 59).kept)
  unfold lowerHold
  split
  · rename_i p hold hst
    have hrest := atRest_conditioning hst
    have hentry := (hrest.paired _).1 hfits.paired
    have hhold := hfits.hold r rfl
    rw [Record.holdFits, hst] at hhold
    simp only [Bool.and_eq_true, decide_eq_true_eq] at hhold
    have hfreed {y : Record} (hy : y.atRest) (hyhold : y.holdFits (s.withConditioning ⟨0⟩).cfg.ceiling = true) :
        (s.withConditioning ⟨0⟩).Fits x (some y) ((s.withConditioning ⟨0⟩).entry x) := by
      refine hfits.freed (fun z hz => ?_) (fun hnone => nomatch hnone) (fun z hz => ?_) ((hy.paired _).2 hentry)
      · cases hz
        exact hrest.1
      · cases hz
        exact ⟨hy.1, hyhold⟩
    split
    · exact hfreed (atRest_shelved rfl) rfl
    · rename_i hgt
      refine hfreed (atRest_conditioning rfl) ?_
      simp only [Record.holdFits, Bool.and_eq_true, decide_eq_true_eq]
      omega
  · exact hfits

theorem kept_runningSecond (s : State) : s.CustodyKept s.runningSecond :=
  .ite (fun h => (still_withConditioning s _ fun _ => Nat.le_of_lt_succ h).kept) fun _ => kept_rollover s

theorem kept_rolloverStep (s : State) : s.CustodyKept s.rolloverStep := .ite (fun _ => kept_rollover s) fun _ => .refl s

/-- The zone clock does not enter the invariant. -/
theorem sameCustody_clock (s : State) (clock : Nat) (due : Bool) :
    s.SameCustody (s.withCustody { s.custody with zoneClock := clock, minuteDue := due }) :=
  ⟨rfl, rfl, rfl, rfl, rfl, rfl, rfl, rfl, rfl, rfl⟩

theorem kept_second (s : State) : s.CustodyKept s.second := by
  unfold State.second
  dsimp only
  have hcounted := (sameCustody_clock (s.withNow ((s.now / 1000 + 1) * 1000)) (s.custody.zoneClock + 1)
    ((s.custody.zoneClock + 1) % 60 == 0)).kept.after (still_withNow s _).kept
  exact .ite (fun _ => .ite (fun _ => (kept_runningSecond _).after hcounted) fun _ => hcounted) fun _ => (still_withNow s _).kept

/-- No record stands CONDITIONING with no hold left, so none is completed. -/
theorem kept_completeStep (s : State) : s.CustodyKept s.completeStep := by
  refine .of_core fun hs => ?_
  unfold State.completeStep
  split
  · exact .refl s
  · rename_i r rest hfilter
    have hmem : r ∈ s.custody.register.filter (Record.holdWithin 0) := by rw [hfilter]; exact List.mem_cons_self
    obtain ⟨hr, hwithin⟩ := List.mem_filter.1 hmem
    have hhold := (hs.fits r.id).hold r ((mem_register_iff hs.records).1 hr)
    unfold Record.holdWithin at hwithin
    split at hwithin
    · rename_i p hold hst
      rw [Record.holdFits, hst] at hhold
      simp only [Bool.and_eq_true, decide_eq_true_eq] at hhold hwithin
      omega
    · cases hwithin

/-! ### A minute event -/

theorem lowerLimit_facts (e : TransferEntry) : (lowerLimit e).id = e.id ∧ (lowerLimit e).direction = e.direction ∧
    (lowerLimit e).peer = e.peer ∧ (lowerLimit e).number = e.number ∧ (lowerLimit e).isOffered = e.isOffered := by
  rcases e with ⟨_, _, _, st⟩
  cases st <;> exact ⟨rfl, rfl, rfl, rfl, rfl⟩

/-- Entries that keep identifier, direction, peer and number stay paired. -/
theorem Paired.map {r : Option Record} {e : Option TransferEntry} {f : TransferEntry → TransferEntry} (h : Paired r e)
    (hf : ∀ e, (f e).direction = e.direction ∧ (f e).peer = e.peer ∧ (f e).number = e.number) : Paired r (e.map f) := by
  cases r with
  | none =>
    cases h
    exact rfl
  | some x =>
    unfold Paired at h ⊢
    dsimp only at h ⊢
    split at h
    · obtain ⟨y, rfl, hy⟩ := h
      obtain ⟨hd, hp, hn⟩ := hf y
      exact ⟨f y, rfl, by rw [hd, hp, hn]; exact hy⟩
    · obtain ⟨y, rfl, hy⟩ := h
      obtain ⟨hd, hp, hn⟩ := hf y
      exact ⟨f y, rfl, by rw [hd, hp, hn]; exact hy⟩
    · cases h
      exact rfl

theorem kept_lowerLimits (s : State) : s.CustodyKept (s.setEntries (s.transfer.entries.map lowerLimit)) where
  core hs := by
    have hid (e : TransferEntry) : (lowerLimit e).id = e.id := (lowerLimit_facts e).1
    refine (sameFrame_setEntries s _).core hs hs.records (sortedBy_map TransferEntry.id _ hid hs.entries)
      (by simpa [State.setEntries, State.withTransfer] using hs.capacity) (fun x => ?_) (.inr fun _ => id)
    have hentry : (s.setEntries (s.transfer.entries.map lowerLimit)).entry x = (s.entry x).map lowerLimit :=
      findBy_map TransferEntry.id _ hid x _
    obtain ⟨hpaired, hhold, hready, hlisted, howner, hmember⟩ := hs.fits x
    refine ⟨?_, hhold, hready, hlisted, howner, hmember⟩
    rw [hentry]
    exact hpaired.map fun e => ⟨(lowerLimit_facts e).2.1, (lowerLimit_facts e).2.2.1, (lowerLimit_facts e).2.2.2.1⟩
  stopped _ h hseq := by
    obtain ⟨hsession, hnone⟩ := h hseq
    refine ⟨hsession, fun e he => ?_⟩
    obtain ⟨e', he', rfl⟩ := List.mem_map.1 he
    rw [(lowerLimit_facts e').2.2.2.2]
    exact hnone e' he'
  room _ h := h

theorem lowerLifetime_facts (m : Manifest) : (lowerLifetime m).state = m.state ∧ (lowerLifetime m).members = m.members := by
  rcases m with ⟨st, _, _⟩
  cases st <;> exact ⟨rfl, rfl⟩

theorem Manifest.Shaped.congr {m m' : Manifest} {b : Bool} (h : m.Shaped b) (hst : m'.state = m.state) (hm : m'.members = m.members) :
    m'.Shaped b := by
  obtain ⟨hsome, hshort, hnodup, hstate⟩ := h
  exact ⟨hm ▸ hsome, hm ▸ hshort, hm ▸ hnodup, hst ▸ hstate⟩

theorem manifest?_map (f : Manifest → Manifest) (l : List (Option Manifest)) (n : Nat) :
    (entryAt 1 (l.map fun m => m.map f) n).join = (entryAt 1 l n).join.map f := by
  unfold entryAt
  split
  · rfl
  · rw [List.getElem?_map]
    rcases l[n - 1]? with _ | _ | m <;> rfl

theorem kept_lowerLifetimes (s : State) (due : Bool) : s.CustodyKept (s.withCustody { s.custody with
    minuteDue := due, manifests := s.custody.manifests.map fun m => m.map lowerLifetime }) where
  core hs := by
    generalize ht : s.withCustody { s.custody with
      minuteDue := due, manifests := s.custody.manifests.map fun m => m.map lowerLifetime } = t
    have hmanifest (n : Nat) : t.manifest? n = (s.manifest? n).map lowerLifetime := by
      subst ht
      exact manifest?_map lowerLifetime _ n
    have hbound : t.boundManifest = s.boundManifest := by subst ht; rfl
    have hsome {n : Nat} {m : Manifest} (h : t.manifest? n = some m) : ∃ m', s.manifest? n = some m' ∧ lowerLifetime m' = m := by
      rwa [hmanifest, Option.map_eq_some_iff] at h
    refine ⟨?_, ?_, fun x => ⟨?_, ?_, ?_, ?_, fun y n hy hn => ?_, fun n m hm hx => ?_⟩, ?_, ?_, ?_, fun n m hm => ?_, fun n hn => ?_,
      ?_, ?_⟩
    · subst ht; exact hs.records
    · subst ht; exact hs.entries
    · subst ht; exact (hs.fits x).paired
    · subst ht; exact (hs.fits x).hold
    · subst ht; exact (hs.fits x).ready
    · subst ht; exact (hs.fits x).listed
    · have hy' : s.find x = some y := by subst ht; exact hy
      obtain ⟨m, hm, hx⟩ := (hs.fits x).owner y n hy' hn
      exact ⟨lowerLifetime m, by rw [hmanifest, hm]; rfl, by rw [(lowerLifetime_facts m).2]; exact hx⟩
    · obtain ⟨m', hm', rfl⟩ := hsome hm
      rw [(lowerLifetime_facts m').2] at hx
      rw [(lowerLifetime_facts m').1, show t.find x = s.find x by subst ht; rfl]
      exact (hs.fits x).member n m' hm' hx
    · subst ht; exact hs.capacity
    · subst ht; exact hs.scans
    · subst ht; exact (List.length_map _).trans hs.table
    · obtain ⟨m', hm', rfl⟩ := hsome hm
      rw [hbound]
      exact (hs.manifests n m' hm').congr (lowerLifetime_facts m').1 (lowerLifetime_facts m').2
    · rw [hbound] at hn
      obtain ⟨m, hm⟩ := hs.bound n hn
      exact ⟨lowerLifetime m, by rw [hmanifest, hm]; rfl⟩
    · subst ht; exact hs.ceiling
    · subst ht; exact hs.configured
  stopped _ h := h
  room _ h := h

theorem kept_minuteStep (s : State) : s.CustodyKept s.minuteStep :=
  .ite (fun _ => (still_chargeExcursion _).kept.after ((kept_lowerLimits _).after (kept_lowerLifetimes s false))) fun _ => .refl s

/-! ### Offers withdrawn -/

/-- The OFFERED entries restored one after the other. -/
theorem kept_restoreAll (l : List TransferEntry) (s : State) (hl : ∀ e ∈ l, s.entry e.id = some e ∧ e.direction = .out)
    (hn : (l.map TransferEntry.id).Nodup) :
    s.CustodyKept (l.foldl (fun t e => (t.restoreRecord e.id).eraseEntry e.id) s) := by
  induction l generalizing s with
  | nil => exact .refl s
  | cons e l ih =>
    rw [List.map_cons, List.nodup_cons] at hn
    obtain ⟨he, hd⟩ := hl e List.mem_cons_self
    refine State.CustodyKept.after (ih _ (fun e' he' => ?_) hn.2) (kept_restored he hd)
    obtain ⟨hfound, hd'⟩ := hl e' (List.mem_cons_of_mem _ he')
    refine ⟨?_, hd'⟩
    have hne : e'.id ≠ e.id := fun hid => hn.1 (hid ▸ List.mem_map_of_mem he')
    refine (findBy_eraseBy_other TransferEntry.id hne _).trans ?_
    change (s.restoreRecord e.id).entry e'.id = some e'
    rw [State.entry, State.restoreRecord_transfer]
    exact hfound

theorem nodup_ids_of_sorted {l : List TransferEntry} (h : sortedBy TransferEntry.id l = true) : (l.map TransferEntry.id).Nodup := by
  rw [sortedBy_iff_pairwise] at h
  rw [List.Nodup, List.pairwise_map]
  exact h.imp fun hlt => identLt_ne hlt

theorem kept_withdrawOffers (s : State) : s.CustodyKept s.withdrawOffers := by
  refine .of_core fun hs => ?_
  unfold State.withdrawOffers
  dsimp only
  refine (still_emitAll _ _).kept.after ((State.Still.foldl still_queueWithdraw _ _).kept.after (kept_restoreAll _ s (fun e he => ?_) ?_))
  · obtain ⟨hfound, hoffered⟩ := entry_of_due hs he
    obtain ⟨wait, hst⟩ := (isOffered_iff e).1 hoffered
    exact ⟨hfound, direction_of_offered hst⟩
  · exact (nodup_ids_of_sorted hs.entries).sublist (List.filter_sublist.map _)

end

end Sys2Proof.Machine

namespace Sys2Proof.Machine

/-! ### Manifests -/

section
variable {s : State}

/-- A change of a record that scans, transfers and holds do not see: only its manifest may be another. -/
structure Record.SameMovement (ceiling : Nat) (r r' : Record) : Prop where
  id : r'.id = r.id
  paired : ∀ e, Paired (some r) e → Paired (some r') e
  hold : r.holdFits ceiling = true → r'.holdFits ceiling = true
  ready : ∀ intent kind, scanReady intent kind (some r') = scanReady intent kind (some r)
  moves : r'.inMovement = r.inMovement

theorem Record.SameMovement.refl (ceiling : Nat) (r : Record) : r.SameMovement ceiling r :=
  ⟨rfl, fun _ h => h, fun h => h, fun _ _ => rfl, rfl⟩

theorem sameMovement_releaseMember (ceiling number minute : Nat) (r : Record) :
    r.SameMovement ceiling (releaseMember number minute r) := by
  rcases r with ⟨x, st, e, l, m⟩
  cases st with
  | reserved p n =>
    unfold releaseMember
    dsimp only
    split
    · exact ⟨rfl, fun _ h => h, fun _ => rfl, fun _ kind => by cases kind <;> rfl, rfl⟩
    · exact .refl _ _
  | _ => exact .refl _ _

theorem sameMovement_reserveRecord (ceiling : Nat) (members : List Ident) (number minute : Nat) (r : Record) :
    r.SameMovement ceiling (reserveRecord members number minute r) := by
  rcases r with ⟨x, st, e, l, m⟩
  cases st with
  | shelved p =>
    cases p with
    | none => exact .refl _ _
    | some p =>
      unfold reserveRecord
      dsimp only
      split
      · exact ⟨rfl, fun _ h => h, fun _ => rfl, fun _ kind => by cases kind <;> rfl, rfl⟩
      · exact .refl _ _
  | _ => exact .refl _ _

/-- The record of the number and only its member is released. -/
theorem releaseMember_eq (number minute : Nat) (r : Record) :
    (∃ p, r.st = .reserved p number ∧ releaseMember number minute r = r.enter (.shelved (some p)) minute) ∨
      (∀ p, r.st ≠ .reserved p number) ∧ releaseMember number minute r = r := by
  unfold releaseMember
  split
  · rename_i p n hst
    split
    · rename_i hn
      exact .inl ⟨p, by rw [hst, hn], rfl⟩
    · rename_i hn
      exact .inr ⟨fun q hq => by rw [hst] at hq; cases hq; exact hn rfl, rfl⟩
  · rename_i hst
    exact .inr ⟨fun p => hst p number, rfl⟩

/-- The manifest under another number is left alone. -/
theorem manifest?_setManifest_other {n k : Nat} (m : Option Manifest) (h : k ≠ n) : (s.setManifest n m).manifest? k = s.manifest? k := by
  rw [State.manifest?, State.manifest?]
  unfold entryAt
  split
  · rfl
  · simp only [State.setManifest, State.setManifests, State.withCustody, setEntry]
    split
    · rfl
    · rw [List.getElem?_set_ne (by omega)]

theorem manifest?_setManifest_none (s : State) (n : Nat) : (s.setManifest n none).manifest? n = none := by
  cases hm : (s.setManifest n none).manifest? n with
  | none => rfl
  | some m =>
    obtain ⟨hle, hlt⟩ := manifest?_range hm
    rw [State.manifest?, entryAt_one _ _ hle] at hm
    simp only [State.setManifest, State.setManifests, State.withCustody, setEntry, Nat.not_lt.2 hle, if_false,
      List.length_set] at hm hlt
    rw [List.getElem?_set_self hlt] at hm
    cases hm

theorem manifest?_setManifest_same {n : Nat} (m : Option Manifest) (hle : 1 ≤ n) (hlt : n - 1 < s.custody.manifests.length) :
    (s.setManifest n m).manifest? n = m := by
  rw [State.manifest?, entryAt_one _ _ hle]
  simp only [State.setManifest, State.setManifests, State.withCustody, setEntry, Nat.not_lt.2 hle, if_false]
  rw [List.getElem?_set_self hlt]
  cases m <;> rfl

theorem length_setManifest (s : State) (n : Nat) (m : Option Manifest) :
    (s.setManifest n m).custody.manifests.length = s.custody.manifests.length := by
  simp only [State.setManifest, State.setManifests, State.withCustody, setEntry]
  split
  · rfl
  · exact List.length_set

/-- A change of the manifest table with the records that go along. -/
theorem kept_setManifest {f : Record → Record} {number : Nat} {manifest : Option Manifest} {t : State}
    (ht : t = (s.setRegister (s.custody.register.map f)).setManifest number manifest)
    (hf : ∀ r : Record, r.SameMovement s.cfg.ceiling (f r))
    (howner : s.CustodyCore → ∀ x r n, s.find x = some r → (f r).st.manifest = some n → ∃ m, t.manifest? n = some m ∧ x ∈ m.members)
    (hmember : s.CustodyCore → ∀ n m, t.manifest? n = some m → ∀ x ∈ m.members, ∃ r, s.find x = some r ∧
      memberReady n m.state (some (f r)) = true)
    (hshape : s.CustodyCore → ∀ n m, t.manifest? n = some m → m.Shaped (s.boundManifest == some n))
    (hbound : s.CustodyCore → ∀ n, s.boundManifest = some n → ∃ m, t.manifest? n = some m) : s.CustodyKept t where
  core hs := by
    have hid (r : Record) : (f r).id = r.id := (hf r).id
    have hfind (x : Ident) : t.find x = (s.find x).map f := by
      subst ht
      exact findBy_map Record.id f hid x _
    have hentry (x : Ident) : t.entry x = s.entry x := by subst ht; rfl
    have hdock : t.dock = s.dock := by subst ht; rfl
    have hconfig : t.request = s.request := by subst ht; rfl
    have hcfg : t.cfg = s.cfg := by rw [State.cfg, State.cfg, hconfig]
    have hboundEq : t.boundManifest = s.boundManifest := by rw [State.boundManifest, State.boundManifest, hdock]
    have hsome {x : Ident} {y : Record} (h : t.find x = some y) : ∃ r, s.find x = some r ∧ f r = y := by
      rwa [hfind, Option.map_eq_some_iff] at h
    refine ⟨?_, ?_, fun x => ⟨?_, fun y hy => ?_, fun k hk hkid => ?_, fun y hy hmoves => ?_, fun y n hy hn => ?_, fun n m hm hx => ?_⟩,
      ?_, ?_, ?_, fun n m hm => ?_, fun n hn => ?_, ?_, ?_⟩
    · subst ht
      exact sortedBy_map Record.id f hid hs.records
    · subst ht
      exact hs.entries
    · have hpaired := (hs.fits x).paired
      rw [hfind, hentry]
      cases hx : s.find x with
      | none => rwa [hx] at hpaired
      | some r =>
        rw [hx] at hpaired
        exact (hf r).paired _ hpaired
    · obtain ⟨r, hr, rfl⟩ := hsome hy
      rw [hcfg]
      exact (hf r).hold ((hs.fits x).hold r hr)
    · rw [hdock] at hk ⊢
      have hready := (hs.fits x).ready k hk hkid
      rw [hfind]
      cases hx : s.find x with
      | none => rwa [hx] at hready
      | some r =>
        rw [hx] at hready
        rw [Option.map_some, (hf r).ready]
        exact hready
    · obtain ⟨r, hr, rfl⟩ := hsome hy
      rw [(hf r).moves] at hmoves
      rw [hdock]
      exact (hs.fits x).listed r hr hmoves
    · obtain ⟨r, hr, rfl⟩ := hsome hy
      exact howner hs x r n hr hn
    · obtain ⟨r, hr, hready⟩ := hmember hs n m hm x hx
      rw [hfind, hr]
      exact hready
    · subst ht
      exact hs.capacity
    · rw [hdock]
      exact hs.scans
    · subst ht
      rw [length_setManifest]
      exact hs.table
    · rw [hboundEq]
      exact hshape hs n m hm
    · rw [hboundEq] at hn
      exact hbound hs n hn
    · rw [hcfg]
      exact hs.ceiling
    · rw [State.configured, hconfig, hdock, show t.line = s.line by subst ht; rfl]
      exact hs.configured.imp_right fun ⟨hnone, hrest⟩ => ⟨fun x => by rw [hfind, hnone]; rfl, hrest⟩
  stopped _ h := by
    subst ht
    exact h
  room _ h := by
    subst ht
    simpa [State.occupancy, State.setRegister, State.setManifest, State.setManifests, State.withCustody] using h

/-- What an OPEN manifest's member is: RESERVED for it. -/
theorem memberReady_waiting {n : Nat} {r : Record} (h : memberReady n .waiting (some r) = true) : ∃ p, r.st = .reserved p n := by
  unfold memberReady at h
  dsimp only at h
  split at h
  · rename_i p k hst
    exact ⟨p, by rw [hst, beq_iff_eq.1 h]⟩
  · simp at h
  · cases h

theorem memberReady_some {n : Nat} {st : ManifestState} {r : Option Record} (h : memberReady n st r = true) :
    ∃ y, r = some y ∧ y.st.manifest = some n := by
  cases r with
  | none => cases h
  | some y =>
    refine ⟨y, rfl, ?_⟩
    unfold memberReady at h
    dsimp only at h
    split at h
    · rename_i hst
      rw [hst, ← beq_iff_eq.1 h]
      rfl
    · rename_i hst
      rw [hst, ← beq_iff_eq.1 (Bool.and_eq_true_iff.1 h).1]
      rfl
    · cases h

theorem reserved_manifest {r : Record} {p : Position} {n : Nat} (h : r.st = .reserved p n) : r.st.manifest = some n := by rw [h]; rfl

/-- An OPEN manifest ends: its members go back to SHELVED and its entry becomes free. -/
theorem kept_freeManifest {number : Nat} {m : Manifest} (hm : s.manifest? number = some m) (hst : m.state = .waiting) :
    s.CustodyKept (s.freeManifest number) := by
  have hother {k : Nat} {m' : Manifest} (h : (s.freeManifest number).manifest? k = some m') : k ≠ number ∧ s.manifest? k = some m' := by
    have hk : k ≠ number := by
      rintro rfl
      rw [State.freeManifest, manifest?_setManifest_none] at h
      cases h
    rw [State.freeManifest, manifest?_setManifest_other _ hk] at h
    exact ⟨hk, h⟩
  have hback {k : Nat} (hk : k ≠ number) : (s.freeManifest number).manifest? k = s.manifest? k := by
    rw [State.freeManifest, manifest?_setManifest_other _ hk]
    rfl
  refine kept_setManifest rfl (sameMovement_releaseMember _ _ _) (fun hs x r n hr hn => ?_) (fun hs n m' hm' x hx => ?_)
    (fun hs n m' hm' => hs.manifests n m' (hother hm').2) (fun hs n hn => ?_)
  · have hne : n ≠ number := by
      rintro rfl
      obtain ⟨p, _, hrelease⟩ | ⟨hnot, hrelease⟩ := releaseMember_eq n s.minute r
      · rw [hrelease] at hn
        cases hn
      · rw [hrelease] at hn
        obtain ⟨m', hm', hx⟩ := (hs.fits x).owner r n hr hn
        rw [hm] at hm'
        cases hm'
        have hready := (hs.fits x).member n m hm hx
        rw [hr, hst] at hready
        obtain ⟨p, hp⟩ := memberReady_waiting hready
        exact hnot p hp
    have hn' : r.st.manifest = some n := by
      obtain ⟨p, hp, hrelease⟩ | ⟨hnot, hrelease⟩ := releaseMember_eq number s.minute r
      · rw [hrelease] at hn
        cases hn
      · rwa [hrelease] at hn
    obtain ⟨m', hm', hx⟩ := (hs.fits x).owner r n hr hn'
    exact ⟨m', (hback hne).trans hm', hx⟩
  · obtain ⟨hne, hm'⟩ := hother hm'
    have hready := (hs.fits x).member n m' hm' hx
    obtain ⟨r, hr, hrn⟩ := memberReady_some hready
    refine ⟨r, hr, ?_⟩
    obtain ⟨p, hp, _⟩ | ⟨_, hrelease⟩ := releaseMember_eq number s.minute r
    · rw [reserved_manifest hp] at hrn
      exact absurd (Option.some.inj hrn).symm hne
    · rw [hrelease, ← hr]
      exact hready
  · obtain ⟨m', hm'⟩ := hs.bound n hn
    have hne : n ≠ number := by
      rintro rfl
      have := (hs.manifests n m hm).state
      rw [hn, hst] at this
      simp at this
    exact ⟨m', (hback hne).trans hm'⟩

theorem kept_endManifest {number : Nat} {m : Manifest} (hm : s.manifest? number = some m) (hst : m.state = .waiting) (cause : ManifestEnd) :
    s.CustodyKept (s.endManifest number m cause) :=
  (still_emit _ _).kept.after (kept_freeManifest hm hst)

theorem kept_expireManifestStep (s : State) : s.CustodyKept s.expireManifestStep := by
  unfold State.expireManifestStep
  split
  · exact .refl s
  · rename_i n rest h
    obtain ⟨hle, ⟨m, hm, hexpired⟩, _⟩ := expiredFrom_cons h
    have hfound : s.manifest? n = some m := by rw [State.manifest?, entryAt_one _ _ hle, hm]; rfl
    rw [hfound]
    refine kept_endManifest hfound ?_ _
    simp only [Manifest.expired, Bool.and_eq_true, beq_iff_eq] at hexpired
    exact hexpired.1

theorem kept_cancelManifestReply (r : Request) : s.CustodyKept (cancelManifestReply r s).state := by
  unfold cancelManifestReply
  dsimp only
  split
  · exact .refl s
  · split
    · exact .refl s
    · rename_i m hm
      split
      · exact .refl s
      · rename_i hst
        exact kept_endManifest hm hst _

/-! ### A manifest created -/

theorem freeFrom_spec {base n : Nat} {l : List (Option Manifest)} (h : freeFrom base l = some n) : base ≤ n ∧ l[n - base]? = some none := by
  induction l generalizing base with
  | nil => cases h
  | cons m l ih =>
    cases m with
    | none =>
      cases h
      exact ⟨Nat.le_refl _, by simp⟩
    | some m =>
      obtain ⟨hle, hl⟩ := ih h
      refine ⟨by omega, ?_⟩
      rw [show n - base = (n - (base + 1)) + 1 by omega, List.getElem?_cons_succ]
      exact hl

/-- An entry that is RESERVED stands no earlier in the list and has a placed SHELVED record (R28). -/
theorem entryResult_reserved {earlier : List Ident} {id : Ident} (h : entryResult s earlier id = .reserved) :
    id ∉ earlier ∧ ∃ r p, s.find id = some r ∧ r.st = .shelved (some p) := by
  unfold entryResult at h
  split at h
  · cases h
  split at h
  · cases h
  rename_i hearlier
  split at h
  · cases h
  rename_i r hr
  split at h
  · rename_i p hst
    exact ⟨by simpa using hearlier, r, p, hr, hst⟩
  · cases h

/-- The members of the manifest that a CHECK-OUT makes (R29). -/
theorem reservedMembers_facts (s : State) (earlier list : List Ident) :
    (reservedMembers list (entryResults s earlier list)).length ≤ list.length ∧
      (reservedMembers list (entryResults s earlier list)).Nodup ∧
        ∀ x ∈ reservedMembers list (entryResults s earlier list), x ∉ earlier ∧ ∃ r p, s.find x = some r ∧ r.st = .shelved (some p) := by
  induction list generalizing earlier with
  | nil => exact ⟨Nat.le_refl 0, List.nodup_nil, fun x hx => by cases hx⟩
  | cons id rest ih =>
    obtain ⟨hlength, hnodup, hfacts⟩ := ih (id :: earlier)
    have hrest (x : Ident) (hx : x ∈ reservedMembers rest (entryResults s (id :: earlier) rest)) := hfacts x hx
    by_cases h : entryResult s earlier id = .reserved
    · have hcons : reservedMembers (id :: rest) (entryResults s earlier (id :: rest)) =
          id :: reservedMembers rest (entryResults s (id :: earlier) rest) := by
        simp [reservedMembers, entryResults, h]
      rw [hcons]
      refine ⟨Nat.succ_le_succ hlength, List.nodup_cons.2 ⟨fun hid => ?_, hnodup⟩, fun x hx => ?_⟩
      · exact (hrest id hid).1 List.mem_cons_self
      · rcases List.mem_cons.1 hx with rfl | hx
        · exact entryResult_reserved h
        · exact ⟨fun hearlier => (hrest x hx).1 (List.mem_cons_of_mem _ hearlier), (hrest x hx).2⟩
    · have hcons : reservedMembers (id :: rest) (entryResults s earlier (id :: rest)) =
          reservedMembers rest (entryResults s (id :: earlier) rest) := by
        simp [reservedMembers, entryResults, h]
      rw [hcons]
      exact ⟨Nat.le_succ_of_le hlength, hnodup, fun x hx =>
        ⟨fun hearlier => (hrest x hx).1 (List.mem_cons_of_mem _ hearlier), (hrest x hx).2⟩⟩

/-- A member of the list, and no other record, is RESERVED. -/
theorem reserveRecord_eq (members : List Ident) (number minute : Nat) (r : Record) :
    (∃ p, r.st = .shelved (some p) ∧ r.id ∈ members ∧ reserveRecord members number minute r = r.enter (.reserved p number) minute) ∨
      (r.id ∈ members → ∀ p, r.st ≠ .shelved (some p)) ∧ reserveRecord members number minute r = r := by
  unfold reserveRecord
  split
  · rename_i p hst
    split
    · rename_i hmem
      exact .inl ⟨p, hst, by simpa using hmem, rfl⟩
    · rename_i hmem
      exact .inr ⟨fun h => absurd (by simpa using h) hmem, rfl⟩
  · rename_i hst
    exact .inr ⟨fun _ p => hst p, rfl⟩

theorem kept_createManifest {number : Nat} {members : List Ident} (hfree : freeFrom 1 s.custody.manifests = some number)
    (hsome : 1 ≤ members.length) (hshort : members.length ≤ 32) (hnodup : members.Nodup)
    (hshelved : ∀ x ∈ members, ∃ r p, s.find x = some r ∧ r.st = .shelved (some p)) :
    s.CustodyKept (s.createManifest number members) := by
  obtain ⟨hle, hplace⟩ := freeFrom_spec hfree
  have hlt : number - 1 < s.custody.manifests.length := (List.getElem?_eq_some_iff.1 hplace).1
  have hnone : s.manifest? number = none := by rw [State.manifest?, entryAt_one _ _ hle, hplace]; rfl
  have hsame : (s.createManifest number members).manifest? number = some ⟨.waiting, members, s.cfg.manifestLifetime⟩ :=
    manifest?_setManifest_same _ hle hlt
  have hother {k : Nat} (hk : k ≠ number) : (s.createManifest number members).manifest? k = s.manifest? k :=
    manifest?_setManifest_other _ hk
  refine kept_setManifest rfl (sameMovement_reserveRecord _ _ _ _) (fun hs x r n hr hn => ?_) (fun hs n m hm x hx => ?_)
    (fun hs n m hm => ?_) (fun hs n hn => ?_)
  · obtain ⟨p, _, hmem, hreserved⟩ | ⟨_, hreserved⟩ := reserveRecord_eq members number s.minute r
    · rw [hreserved] at hn
      cases hn
      exact ⟨_, hsame, key_of_find hr ▸ hmem⟩
    · rw [hreserved] at hn
      obtain ⟨m, hm, hx⟩ := (hs.fits x).owner r n hr hn
      have hne : n ≠ number := by
        rintro rfl
        rw [hnone] at hm
        cases hm
      exact ⟨m, (hother hne).trans hm, hx⟩
  · by_cases hn : n = number
    · subst hn
      rw [hsame] at hm
      cases hm
      obtain ⟨r, p, hr, hst⟩ := hshelved x hx
      refine ⟨r, hr, ?_⟩
      obtain ⟨q, _, _, hreserved⟩ | ⟨hnot, _⟩ := reserveRecord_eq members n s.minute r
      · rw [hreserved]
        exact beq_self_eq_true n
      · exact absurd hst (hnot (by rw [key_of_find hr]; exact hx) p)
    · rw [hother hn] at hm
      have hready := (hs.fits x).member n m hm hx
      obtain ⟨r, hr, hrn⟩ := memberReady_some hready
      refine ⟨r, hr, ?_⟩
      obtain ⟨q, hq, _⟩ | ⟨_, hreserved⟩ := reserveRecord_eq members number s.minute r
      · rw [hq] at hrn
        cases hrn
      · rw [hreserved, ← hr]
        exact hready
  · by_cases hn : n = number
    · subst hn
      rw [hsame] at hm
      cases hm
      refine ⟨hsome, hshort, hnodup, ?_⟩
      have hunbound : (s.boundManifest == some n) = false := by
        refine beq_eq_false_iff_ne.2 fun hb => ?_
        obtain ⟨m, hm⟩ := hs.bound n hb
        rw [hnone] at hm
        cases hm
      simp [hunbound]
    · rw [hother hn] at hm
      exact hs.manifests n m hm
  · obtain ⟨m, hm⟩ := hs.bound n hn
    have hne : n ≠ number := by
      rintro rfl
      rw [hnone] at hm
      cases hm
    exact ⟨m, (hother hne).trans hm⟩

theorem kept_checkOutReply (r : Request) : s.CustodyKept (checkOutReply r s).state := by
  unfold checkOutReply
  dsimp only
  split
  · exact .refl s
  rename_i hlength
  split
  · exact .refl s
  split
  · exact .refl s
  split
  · exact .refl s
  rename_i number hfree
  obtain ⟨hshort, hnodup, hfacts⟩ := reservedMembers_facts s [] (checkOutList (requestFields r.payload))
  split
  · exact .refl s
  · rename_i hempty
    have hsome : 1 ≤ (reservedMembers (checkOutList (requestFields r.payload))
        (entryResults s [] (checkOutList (requestFields r.payload)))).length := by
      refine List.length_pos_iff.2 fun h => hempty ?_
      rw [h]
      rfl
    refine kept_createManifest hfree hsome (Nat.le_trans hshort ?_) hnodup fun x hx => (hfacts x hx).2
    exact Nat.le_of_not_lt (not_or.1 hlength).2

end

end Sys2Proof.Machine

namespace Sys2Proof.Machine

/-! ### The dock unit's own changes -/

section
variable {s : State}

/-- The session has bound a manifest only in LOADING and SEALING, outside a RETURN. -/
theorem boundManifest_eq_some {n : Nat} (h : s.boundManifest = some n) : s.dock.manifest = some n ∧ s.dock.intent ≠ some .returning ∧
    (s.dock.session = .loading ∨ s.dock.session = .sealing) := by
  unfold State.boundManifest at h
  split at h
  · rename_i hcond
    simp only [Bool.and_eq_true, bne_iff_ne, Bool.or_eq_true, beq_iff_eq] at hcond
    exact ⟨h, hcond.1, hcond.2⟩
  · cases h

theorem boundManifest_eq_none (hl : s.dock.session ≠ .loading) (hsl : s.dock.session ≠ .sealing) : s.boundManifest = none := by
  cases h : s.boundManifest with
  | none => rfl
  | some n => exact absurd (boundManifest_eq_some h).2.2 (not_or.2 ⟨hl, hsl⟩)

/-- With no manifest bound every manifest is OPEN. -/
theorem waiting_of_unbound (hs : s.CustodyCore) {n : Nat} {m : Manifest} (hm : s.manifest? n = some m) (h : s.boundManifest ≠ some n) :
    m.state = .waiting := by
  have hstate := (hs.manifests n m hm).state
  cases hst : m.state with
  | waiting => rfl
  | inSession => exact absurd (beq_iff_eq.1 (hstate.1 hst)) h

theorem scans_eq_nil (hs : s.CustodyCore) (hl : s.dock.session ≠ .loading) (hsl : s.dock.session ≠ .sealing) : s.dock.scans = [] := by
  rcases hs.scans.place with h | h | h
  · exact h
  · exact absurd h hl
  · exact absurd h hsl

theorem configured_of_session (hs : s.CustodyCore) (h : s.dock.session ≠ .idle) : s.configured = true := by
  rcases hs.configured with hc | ⟨_, hidle, _⟩
  · exact hc
  · exact absurd hidle h

/-- A change of the dock unit that keeps the scan list and the binding of the manifest. -/
theorem kept_changeDock {d : DockUnit} (hscans : d.scans = s.dock.scans) (hintent : d.intent = s.dock.intent ∨ s.dock.scans = [])
    (hbound : (s.withDock d).boundManifest = s.boundManifest)
    (hplace : s.dock.scans = [] ∨ d.session = .loading ∨ d.session = .sealing)
    (hconf : s.configured = true ∨ d.session = .idle)
    (hstop : d.session.beforeCommit = true → s.dock.session.beforeCommit = true ∨ seqCode s.fire.seq < 3) :
    s.CustodyKept (s.withDock d) where
  core hs := by
    refine ⟨hs.records, hs.entries, fun x => ?_, hs.capacity, ?_, hs.table, fun n m hm => ?_, fun n hn => ?_, hs.ceiling, ?_⟩
    · obtain ⟨hpaired, hhold, hready, hlisted, howner, hmember⟩ := hs.fits x
      refine ⟨hpaired, hhold, ?_, ?_, howner, hmember⟩
      · rw [State.withDock_dock, hscans]
        rcases hintent with hi | hnil
        · rw [hi]
          exact hready
        · rw [hnil]
          exact fun k hk => absurd hk List.not_mem_nil
      · rw [State.withDock_dock, hscans]
        exact hlisted
    · obtain ⟨hshort, hnodup, _⟩ := hs.scans
      exact ⟨by rw [State.withDock_dock, hscans]; exact hshort, by rw [State.withDock_dock, hscans]; exact hnodup,
        by rw [State.withDock_dock, hscans]; exact hplace⟩
    · rw [hbound]
      exact hs.manifests n m hm
    · rw [hbound] at hn
      exact hs.bound n hn
    · rcases hconf with hc | hidle
      · exact .inl hc
      · exact hs.configured.imp_right fun ⟨hnone, _, hpeer⟩ => ⟨hnone, hidle, hpeer⟩
  stopped _ h hseq := by
    obtain ⟨hsession, hnone⟩ := h hseq
    refine ⟨Bool.eq_false_iff.2 fun hb => ?_, hnone⟩
    rcases hstop hb with hb' | hlt
    · rw [hsession] at hb'
      cases hb'
    · exact absurd hseq (Nat.not_le.2 hlt)
  room _ h := by
    rw [State.occupancy, State.withDock_dock, hscans]
    exact h

/-- As `kept_changeDock`, between session states in which the scan list is empty and no manifest is bound. -/
theorem kept_moveSession {d : DockUnit} (hscans : d.scans = s.dock.scans)
    (hl : s.dock.session ≠ .loading) (hsl : s.dock.session ≠ .sealing) (hl' : d.session ≠ .loading) (hsl' : d.session ≠ .sealing)
    (hconf : s.CustodyCore → s.configured = true ∨ d.session = .idle)
    (hstop : d.session.beforeCommit = true → s.dock.session.beforeCommit = true ∨ seqCode s.fire.seq < 3) :
    s.CustodyKept (s.withDock d) :=
  .of_core fun hs =>
    have hnil := scans_eq_nil hs hl hsl
    kept_changeDock hscans (.inr hnil)
      ((boundManifest_eq_none (s := s.withDock d) hl' hsl').trans (boundManifest_eq_none hl hsl).symm) (.inl hnil) (hconf hs) hstop

/-- A change of the dock unit that custody does not see. -/
theorem kept_withDock {d : DockUnit} (h1 : d.session = s.dock.session) (h2 : d.intent = s.dock.intent)
    (h3 : d.manifest = s.dock.manifest) (h4 : d.scans = s.dock.scans) : s.CustodyKept (s.withDock d) :=
  State.SameCustody.kept ⟨rfl, rfl, rfl, h1, h2, h3, h4, rfl, rfl, rfl⟩

theorem kept_setVerdict (s : State) (v : Verdict) : s.CustodyKept (s.setVerdict v) := kept_withDock rfl rfl rfl rfl

theorem kept_startSession (hidle : s.dock.session = .idle) (hc : s.configured = true) (hseq : seqCode s.fire.seq < 3) :
    s.CustodyKept s.startSession :=
  (still_sendNext _).kept.after (kept_moveSession rfl (by rw [hidle]; decide) (by rw [hidle]; decide) nofun nofun
    (fun _ => .inl hc) fun _ => .inr hseq)

theorem kept_caseArrives (s : State) : s.CustodyKept s.caseArrives := by
  have hpresent := (still_withPins s { s.pins with casePresent := true }).kept
  unfold State.caseArrives
  dsimp only
  split
  · rename_i hidle
    refine .ite (fun _ => ?_) fun hbarred => ?_
    · refine (still_emit _ _).kept.after (State.CustodyKept.after (kept_withDock ?_ ?_ ?_ ?_) hpresent) <;> rfl
    · simp only [State.arrivalBarred, Bool.or_eq_true, Bool.not_eq_true', not_or, Bool.not_eq_true, Bool.not_eq_false] at hbarred
      obtain ⟨⟨hc, halarm⟩, _⟩ := hbarred
      refine State.CustodyKept.after (kept_startSession ?_ ?_ ?_) hpresent
      · exact hidle
      · exact hc
      · exact inAlarm_lt (Bool.eq_false_iff.1 halarm)
  · exact hpresent

/-- WAKING and IDENTIFYING end in a state of the session in which nothing is scanned and nothing bound. -/
theorem kept_beginAuth (s : State) (caseId : BitVec 32) (badge : BitVec 24) (count : Word16) (intent : Byte) (intervals : List RawInterval)
    (h : s.dock.session = .identifying) : s.CustodyKept (s.takeIdentity caseId badge count intent intervals) := by
  refine (still_emit _ _).kept.after (kept_moveSession rfl (by rw [h]; decide) (by rw [h]; decide) ?_ ?_ (fun hs => .inl ?_) fun _ => .inl ?_)
  · exact nofun
  · exact nofun
  · exact configured_of_session hs (by rw [h]; decide)
  · rw [h]
    rfl

theorem kept_identify (h : s.dock.session = .waking) :
    s.CustodyKept (s.withDock { s.dock with session := .identifying, faults := 0, stateTimer := some s.now }) := by
  refine kept_moveSession rfl (by rw [h]; decide) (by rw [h]; decide) ?_ ?_ (fun hs => .inl ?_) fun _ => .inl ?_
  · exact nofun
  · exact nofun
  · exact configured_of_session hs (by rw [h]; decide)
  · rw [h]
    rfl

/-- A session past its commit point ends: its scan list is empty already. -/
theorem kept_endCommitted (o : SessionOutcome) (h : s.dock.session = .committing) : s.CustodyKept (s.endCommitted o) := by
  refine .of_core fun hs => ?_
  have hnil := scans_eq_nil hs (by rw [h]; decide) (by rw [h]; decide)
  unfold State.endCommitted
  dsimp only
  refine State.CustodyKept.after (kept_moveSession ?_ ?_ ?_ ?_ ?_ ?_ ?_) (still_emit s (.sessionEnded (s.commitReport o))).kept
  · rw [State.emit_dock, hnil]
    rfl
  · rw [State.emit_dock, h]
    exact nofun
  · rw [State.emit_dock, h]
    exact nofun
  · exact nofun
  · exact nofun
  · exact fun _ => .inr rfl
  · exact nofun

/-- LOADING is closed: SEALING keeps the scan list and the manifest (R64). -/
theorem kept_seal (h : s.dock.session = .loading) :
    s.CustodyKept (s.withDock { s.dock with session := .sealing, faults := 0, idleTimer := none }) := by
  refine .of_core fun hs => kept_changeDock rfl (.inl rfl) ?_ (.inr (.inr rfl))
    (.inl (configured_of_session hs (by rw [h]; decide))) fun _ => .inl (by rw [h]; rfl)
  simp [State.boundManifest, h]

/-! ### The end of a session before its commit point -/

theorem revertRecord_id (minute : Nat) (r : Record) : (revertRecord minute r).id = r.id := by
  unfold revertRecord
  split <;> rfl

/-- A record reverted: no longer in movement, else as custody needs it. -/
theorem revertRecord_facts (minute ceiling : Nat) (r : Record) : (∀ e, Paired (some r) e → Paired (some (revertRecord minute r)) e) ∧
    (r.holdFits ceiling = true → (revertRecord minute r).holdFits ceiling = true) ∧ (revertRecord minute r).inMovement = false ∧
      (revertRecord minute r).st.manifest = r.st.manifest := by
  rcases r with ⟨_, st, _, _, _⟩
  cases st <;> exact ⟨fun _ h => h, fun h => h, rfl, rfl⟩

/-- A member that stands for its manifest stands for it once more when the session is reverted. -/
theorem memberReady_revertRecord {n minute : Nat} {st : ManifestState} {r : Record} (h : memberReady n st (some r) = true)
    (st' : ManifestState) : memberReady n st' (some (revertRecord minute r)) = true := by
  rcases r with ⟨_, st, _, _, _⟩
  cases st with
  | reserved p k => exact h
  | loading p k => exact (Bool.and_eq_true_iff.1 h).1
  | _ => cases h

theorem length_reopenManifest (s : State) : s.reopenManifest.custody.manifests.length = s.custody.manifests.length := by
  unfold State.reopenManifest
  split
  · rfl
  · split
    · rfl
    · exact length_setManifest _ _ _

/-- A reopened manifest keeps its members. -/
theorem reopenManifest_members (n : Nat) :
    (s.reopenManifest.manifest? n).map Manifest.members = (s.manifest? n).map Manifest.members := by
  rw [reopenManifest_manifest]
  split
  · rw [Option.map_map]
    rfl
  · rfl

theorem reopenManifest_waiting (hs : s.CustodyCore) {n : Nat} {m : Manifest} (hm : s.reopenManifest.manifest? n = some m) :
    m.state = .waiting := by
  rw [reopenManifest_manifest] at hm
  split at hm
  · obtain ⟨m', _, rfl⟩ := Option.map_eq_some_iff.1 hm
    rfl
  · rename_i hne
    exact waiting_of_unbound hs hm fun hb => hne (boundManifest_eq_some hb).1

/-- The tables and the dock of a session reverted, whatever else its end does. -/
structure State.Reverted (s t : State) : Prop where
  register : t.custody.register = s.custody.register.map (revertRecord s.minute)
  manifests : t.custody.manifests = s.reopenManifest.custody.manifests
  transfer : t.transfer = s.transfer
  request : t.request = s.request
  peerIn : t.line.peerIn = s.line.peerIn
  fire : t.fire = s.fire
  session : t.dock.session = .idle
  scans : t.dock.scans = []

theorem reverted_endUncommitted (s : State) (o : SessionOutcome) : s.Reverted (s.endUncommitted o) := by
  have hregister : s.revertSession.custody.register = s.custody.register.map (revertRecord s.minute) := by
    change List.map _ s.reopenManifest.custody.register = _
    rw [reopenManifest_custody]
  have hidle : s.Reverted (((s.revertSession.emit (.sessionEnded
      { s.report o s.dock.scans.length with reverted := some s.dock.scans.length })).withDock
        ((s.revertSession.emit (.sessionEnded
          { s.report o s.dock.scans.length with reverted := some s.dock.scans.length })).dock.cleared .refused (some s.now)))) :=
    ⟨by rw [State.withDock_custody, State.emit_custody, hregister], by rw [State.withDock_custody, State.emit_custody]; rfl,
      by simp [State.revertSession], by simp [State.revertSession], by simp [State.revertSession], by simp [State.revertSession],
      rfl, rfl⟩
  unfold State.endUncommitted
  dsimp only
  split
  · obtain ⟨h1, h2, h3, h4, h5, h6, h7, h8⟩ := hidle
    exact ⟨h1, h2, h3, h4, h5, h6, h7, h8⟩
  · obtain ⟨h1, h2, h3, h4, h5, h6, h7, h8⟩ := hidle
    refine ⟨?_, ?_, ?_, ?_, ?_, ?_, ?_, ?_⟩
    · rw [State.abort_custody]; exact h1
    · rw [State.abort_custody]; exact h2
    · rw [State.abort_transfer]; exact h3
    · rw [State.abort_request]; exact h4
    · rw [State.abort_line]; exact h5
    · rw [State.abort_fire]; exact h6
    · rw [(still_abort _ o).same.session]; exact h7
    · rw [(still_abort _ o).same.scans]; exact h8

theorem State.Reverted.kept {t : State} (h : s.Reverted t) : s.CustodyKept t where
  core hs := by
    have hfind (x : Ident) : t.find x = (s.find x).map (revertRecord s.minute) := by
      rw [State.find, h.register]
      exact findBy_map Record.id _ (revertRecord_id _) x _
    have hentry (x : Ident) : t.entry x = s.entry x := by rw [State.entry, State.entry, h.transfer]
    have hcfg : t.cfg = s.cfg := by rw [State.cfg, State.cfg, h.request]
    have hmanifest (n : Nat) : t.manifest? n = s.reopenManifest.manifest? n := by rw [State.manifest?, State.manifest?, h.manifests]
    have hunbound : t.boundManifest = none := boundManifest_eq_none (by rw [h.session]; decide) (by rw [h.session]; decide)
    have hsome {x : Ident} {y : Record} (hy : t.find x = some y) : ∃ r, s.find x = some r ∧ revertRecord s.minute r = y := by
      rwa [hfind, Option.map_eq_some_iff] at hy
    have hmembers {n : Nat} {m : Manifest} (hm : t.manifest? n = some m) : ∃ m', s.manifest? n = some m' ∧ m'.members = m.members := by
      have hmap := reopenManifest_members (s := s) n
      rwa [← hmanifest, hm, Option.map_some, eq_comm, Option.map_eq_some_iff] at hmap
    refine ⟨?_, ?_, fun x => ⟨?_, fun y hy => ?_, ?_, fun y hy hmoves => ?_, fun y n hy hn => ?_, fun n m hm hx => ?_⟩,
      ?_, ⟨?_, ?_, .inl h.scans⟩, ?_, fun n m hm => ?_, fun n hn => ?_, ?_, ?_⟩
    · rw [h.register]
      exact sortedBy_map Record.id _ (revertRecord_id _) hs.records
    · rw [h.transfer]
      exact hs.entries
    · have hpaired := (hs.fits x).paired
      rw [hfind, hentry]
      cases hx : s.find x with
      | none => rwa [hx] at hpaired
      | some r =>
        rw [hx] at hpaired
        exact (revertRecord_facts s.minute 0 r).1 _ hpaired
    · obtain ⟨r, hr, rfl⟩ := hsome hy
      rw [hcfg]
      exact (revertRecord_facts s.minute s.cfg.ceiling r).2.1 ((hs.fits x).hold r hr)
    · rw [h.scans]
      exact fun k hk => absurd hk List.not_mem_nil
    · obtain ⟨r, _, rfl⟩ := hsome hy
      rw [(revertRecord_facts s.minute 0 r).2.2.1] at hmoves
      cases hmoves
    · obtain ⟨r, hr, rfl⟩ := hsome hy
      rw [(revertRecord_facts s.minute 0 r).2.2.2] at hn
      obtain ⟨m, hm, hx⟩ := (hs.fits x).owner r n hr hn
      have hmap := reopenManifest_members (s := s) n
      rw [← hmanifest, hm, Option.map_some, Option.map_eq_some_iff] at hmap
      obtain ⟨m', hm', hmem⟩ := hmap
      exact ⟨m', hm', hmem ▸ hx⟩
    · obtain ⟨m', hm', hmem⟩ := hmembers hm
      have hready := (hs.fits x).member n m' hm' (hmem ▸ hx)
      obtain ⟨r, hr, _⟩ := memberReady_some hready
      rw [hr] at hready
      rw [hfind, hr]
      exact memberReady_revertRecord hready _
    · rw [h.transfer]
      exact hs.capacity
    · rw [h.scans]
      exact Nat.zero_le _
    · rw [h.scans]
      exact List.nodup_nil
    · rw [h.manifests, length_reopenManifest]
      exact hs.table
    · obtain ⟨m', hm', hmem⟩ := hmembers hm
      obtain ⟨hsome, hshort, hnodup, _⟩ := hs.manifests n m' hm'
      refine ⟨hmem ▸ hsome, hmem ▸ hshort, hmem ▸ hnodup, ?_⟩
      rw [reopenManifest_waiting hs ((hmanifest n).symm.trans hm), hunbound]
      simp
    · rw [hunbound] at hn
      cases hn
    · rw [hcfg]
      exact hs.ceiling
    · rw [State.configured, h.request, h.session, h.peerIn]
      exact hs.configured.imp_right fun ⟨hnone, _, hpeer⟩ => ⟨fun x => by rw [hfind, hnone]; rfl, rfl, hpeer⟩
  stopped _ hstopped hseq := by
    rw [h.fire] at hseq
    rw [h.session, h.transfer]
    exact ⟨rfl, (hstopped hseq).2⟩
  room _ hocc := by
    rw [State.occupancy] at hocc
    rw [State.occupancy, h.register, h.scans, List.length_map]
    exact Nat.le_trans (Nat.add_le_add_left (Nat.zero_le _) _) hocc

theorem kept_endUncommitted (s : State) (o : SessionOutcome) : s.CustodyKept (s.endUncommitted o) := (reverted_endUncommitted s o).kept

theorem kept_caseLeaves (s : State) : s.CustodyKept s.caseLeaves := by
  have habsent := (still_withPins s { s.pins with casePresent := false }).kept
  unfold State.caseLeaves
  dsimp only
  split
  · refine State.CustodyKept.after (kept_withDock ?_ ?_ ?_ ?_) habsent <;> rfl
  · rename_i h
    refine State.CustodyKept.after (kept_endCommitted _ ?_) habsent
    exact h
  · exact (kept_endUncommitted _ _).after habsent

theorem kept_closePressed (s : State) : s.CustodyKept s.closePressed := by
  unfold State.closePressed
  split
  · rename_i h
    exact .ite (fun _ => kept_endUncommitted _ _) fun _ => (still_sendAtOnce _).kept.after (kept_seal h)
  · exact .refl s

theorem kept_cancelPressed (s : State) : s.CustodyKept s.cancelPressed := .ite (fun _ => kept_endUncommitted _ _) fun _ => .refl s

theorem kept_frameFault (s : State) : s.CustodyKept s.frameFault := by
  have hcount : s.CustodyKept (s.withDock { s.dock with faults := s.dock.faults + 1 }) := kept_withDock rfl rfl rfl rfl
  unfold State.frameFault
  split
  · exact .refl s
  · exact .refl s
  · rename_i h
    exact .ite (fun _ => kept_endCommitted _ h) fun _ => hcount
  all_goals exact .ite (fun _ => kept_endUncommitted _ _) fun _ => hcount

theorem kept_denyReply (r : Request) : s.CustodyKept (denyReply r s).state := by
  unfold denyReply
  split
  · exact .refl s
  · split
    · exact .refl s
    · exact kept_endUncommitted s .denied

/-! ### Authorisation -/

/-- A RETURN is authorised: no manifest is bound (R55). -/
theorem kept_enterReturn (h : s.dock.session = .awaitingAuth) (hintent : s.dock.intent = some .returning) :
    s.CustodyKept (s.enterLoading none) := by
  refine .of_core fun hs => kept_changeDock rfl (.inl rfl) ?_ (.inr (.inl rfl))
    (.inl (configured_of_session hs (by rw [h]; decide))) fun _ => .inl (by rw [h]; rfl)
  rw [boundManifest_eq_none (s := s) (by rw [h]; decide) (by rw [h]; decide)]
  simp [State.boundManifest, hintent]

theorem memberReady_of_waiting {n : Nat} {r : Option Record} (h : memberReady n .waiting r = true) (st : ManifestState) :
    memberReady n st r = true := by
  obtain ⟨y, rfl, _⟩ := memberReady_some h
  obtain ⟨p, hp⟩ := memberReady_waiting h
  unfold memberReady
  simp [hp]

/-- A DEPART is authorised: the manifest is bound and IN SESSION (R34, R35). -/
theorem kept_bindLoading {number : Nat} {m : Manifest} (h : s.dock.session = .awaitingAuth) (hintent : s.dock.intent ≠ some .returning)
    (hm : s.manifest? number = some m) :
    s.CustodyKept ((s.setManifest number (some { m with state := .inSession })).enterLoading (some number)) where
  core hs := by
    generalize ht : (s.setManifest number (some { m with state := .inSession })).enterLoading (some number) = t
    obtain ⟨hle, hlt⟩ := manifest?_range hm
    have hnil := scans_eq_nil hs (by rw [h]; decide) (by rw [h]; decide)
    have hunbound : s.boundManifest = none := boundManifest_eq_none (by rw [h]; decide) (by rw [h]; decide)
    have hsame : t.manifest? number = some { m with state := .inSession } := by
      subst ht
      exact manifest?_setManifest_same _ hle hlt
    have hother {k : Nat} (hk : k ≠ number) : t.manifest? k = s.manifest? k := by
      subst ht
      exact manifest?_setManifest_other _ hk
    have hbound : t.boundManifest = some number := by
      subst ht
      simp [State.boundManifest, State.enterLoading, State.withDock, hintent]
    have hscans : t.dock.scans = [] := by subst ht; exact hnil
    have hfind (x : Ident) : t.find x = s.find x := by subst ht; rfl
    refine ⟨?_, ?_, fun x => ⟨?_, ?_, ?_, fun y hy hmoves => ?_, fun y n hy hn => ?_, fun n m' hm' hx => ?_⟩,
      ?_, ⟨?_, ?_, .inl hscans⟩, ?_, fun n m' hm' => ?_, fun n hn => ?_, ?_, ?_⟩
    · subst ht; exact hs.records
    · subst ht; exact hs.entries
    · subst ht; exact (hs.fits x).paired
    · subst ht; exact (hs.fits x).hold
    · rw [hscans]
      exact fun k hk => absurd hk List.not_mem_nil
    · rw [hfind] at hy
      obtain ⟨k, hk, _⟩ := (hs.fits x).listed y hy hmoves
      rw [hnil] at hk
      cases hk
    · rw [hfind] at hy
      obtain ⟨m', hm', hx⟩ := (hs.fits x).owner y n hy hn
      by_cases hnum : n = number
      · subst hnum
        rw [hm] at hm'
        cases hm'
        exact ⟨_, hsame, hx⟩
      · exact ⟨m', (hother hnum).trans hm', hx⟩
    · rw [hfind]
      by_cases hnum : n = number
      · subst hnum
        rw [hsame] at hm'
        cases hm'
        have hready := (hs.fits x).member n m hm hx
        rw [waiting_of_unbound hs hm (by rw [hunbound]; exact nofun)] at hready
        exact memberReady_of_waiting hready _
      · rw [hother hnum] at hm'
        exact (hs.fits x).member n m' hm' hx
    · subst ht; exact hs.capacity
    · rw [hscans]
      exact Nat.zero_le _
    · rw [hscans]
      exact List.nodup_nil
    · subst ht
      exact (length_setManifest _ _ _).trans hs.table
    · rw [hbound]
      by_cases hnum : n = number
      · subst hnum
        rw [hsame] at hm'
        cases hm'
        obtain ⟨hsome, hshort, hnodup, _⟩ := hs.manifests n m hm
        exact ⟨hsome, hshort, hnodup, by simp⟩
      · rw [hother hnum] at hm'
        obtain ⟨hsome, hshort, hnodup, hstate⟩ := hs.manifests n m' hm'
        refine ⟨hsome, hshort, hnodup, hstate.trans ?_⟩
        rw [hunbound, beq_eq_false_iff_ne.2 (fun hb => hnum (Option.some.inj hb).symm : some number ≠ some n)]
        simp
    · rw [hbound] at hn
      cases hn
      exact ⟨_, hsame⟩
    · subst ht; exact hs.ceiling
    · subst ht
      exact .inl (configured_of_session (s := s) hs (by rw [h]; decide))
  stopped _ hstopped hseq := by
    have := (hstopped hseq).1
    rw [h] at this
    cases this
  room _ h := h

theorem kept_authorizeReply (r : Request) : s.CustodyKept (authorizeReply r s).state := by
  unfold authorizeReply
  dsimp only
  split
  · exact .refl s
  split
  · exact .refl s
  split
  · exact .refl s
  rename_i hsession
  have hsession := not_not.1 hsession
  split
  · rename_i hintent
    split
    · exact kept_enterReturn hsession hintent
    · exact .refl s
  · rename_i hintent
    split
    · exact .refl s
    · split
      · exact .refl s
      · rename_i bound hbind
        unfold State.bindManifest at hbind
        split at hbind
        · cases hbind
        · rename_i m hm
          split at hbind
          · cases hbind
          · cases hbind
            exact kept_bindLoading hsession hintent hm

end

end Sys2Proof.Machine

namespace Sys2Proof.Machine

/-! ### Scans -/

section
variable {s : State}

/-- What is asked of a scan list entry that is appended, and of the record it leaves under its identifier. -/
structure State.ScanFits (s : State) (k : ScanEntry) (r : Option Record) : Prop where
  paired : Paired r (s.entry k.id)
  hold : ∀ y, r = some y → y.holdFits s.cfg.ceiling = true
  ready : scanReady s.dock.intent k.kind r = true
  listed : ∀ y, r = some y → k.isUnregistered = false
  owner : ∀ y n, r = some y → y.st.manifest = some n → ∃ m, s.manifest? n = some m ∧ k.id ∈ m.members
  member : ∀ n m, s.manifest? n = some m → k.id ∈ m.members → memberReady n m.state r = true

/-- An entry appended to the scan list, with the record of its identifier changed along with it. -/
theorem kept_appendScan {u : State} {k : ScanEntry} (hu : s.OneChanged u k.id) (hentries : u.transfer.entries = s.transfer.entries)
    (hsession : s.dock.session = .loading) (hnew : s.scanned k.id = false) (hfull : s.dock.scans.length < 32)
    (hlength : s.CustodyCore → u.custody.register.length ≤ s.custody.register.length)
    (hroom : k.isUnregistered = true → s.occupancy < 1024) (hfits : s.CustodyCore → s.ScanFits k (u.find k.id)) :
    s.CustodyKept (u.appendScan k) where
  core hs := by
    have hentry (x : Ident) : u.entry x = s.entry x := by rw [State.entry, State.entry, hentries]
    have hunscanned : ∀ k' ∈ s.dock.scans, k'.id ≠ k.id := by simpa [State.scanned] using hnew
    have hscans : (u.appendScan k).dock.scans = s.dock.scans ++ [k] := by
      rw [State.appendScan, State.withDock_dock, hu.frame.scans]
    have hintent : (u.appendScan k).dock.intent = s.dock.intent := hu.frame.intent
    have hmanifest (n : Nat) : (u.appendScan k).manifest? n = s.manifest? n := hu.frame.manifest? n
    have hbound : (u.appendScan k).boundManifest = s.boundManifest := hu.frame.boundManifest
    have hcfg : (u.appendScan k).cfg = s.cfg := hu.frame.cfg
    refine ⟨hu.records hs.records, ?_, fun x => ?_, ?_, ⟨?_, ?_, .inr (.inl (hu.frame.session.trans hsession))⟩, ?_,
      fun n m hm => ?_, fun n hn => ?_, ?_, .inl ?_⟩
    · exact hu.entries hs.entries
    · change (u.appendScan k).Fits x (u.find x) (u.entry x)
      by_cases hx : x = k.id
      · subst hx
        obtain ⟨hpaired, hhold, hready, hlisted, howner, hmember⟩ := hfits hs
        refine ⟨?_, ?_, fun k' hk' hid => ?_, fun y hy _ => ⟨k, ?_, rfl, hlisted y hy⟩, fun y n hy hn => ?_, fun n m hm hx => ?_⟩
        · rw [hentry]
          exact hpaired
        · rw [hcfg]
          exact hhold
        · rw [hscans, List.mem_append, List.mem_singleton] at hk'
          rcases hk' with hk' | rfl
          · exact absurd hid (hunscanned k' hk')
          · rw [hintent]
            exact hready
        · rw [hscans]
          exact List.mem_append_right _ List.mem_cons_self
        · rw [hmanifest]
          exact howner y n hy hn
        · rw [hmanifest] at hm
          exact hmember n m hm hx
      · rw [hu.find x hx, hentry]
        obtain ⟨hpaired, hhold, hready, hlisted, howner, hmember⟩ := hs.fits x
        refine ⟨hpaired, ?_, fun k' hk' hid => ?_, fun y hy hmoves => ?_, fun y n hy hn => ?_, fun n m hm hmem => ?_⟩
        · rw [hcfg]
          exact hhold
        · rw [hscans, List.mem_append, List.mem_singleton] at hk'
          rcases hk' with hk' | rfl
          · rw [hintent]
            exact hready k' hk' hid
          · exact absurd hid.symm hx
        · obtain ⟨k', hk', hrest⟩ := hlisted y hy hmoves
          exact ⟨k', by rw [hscans]; exact List.mem_append_left _ hk', hrest⟩
        · rw [hmanifest]
          exact howner y n hy hn
        · rw [hmanifest] at hm
          exact hmember n m hm hmem
    · change u.transfer.entries.length ≤ 8
      rw [hentries]
      exact hs.capacity
    · rw [hscans, List.length_append]
      exact hfull
    · rw [hscans, List.map_append, List.map_singleton, List.nodup_append]
      refine ⟨hs.scans.nodup, List.nodup_singleton _, fun a ha b hb hab => ?_⟩
      obtain ⟨k', hk', rfl⟩ := List.mem_map.1 ha
      rw [List.mem_singleton] at hb
      exact hunscanned k' hk' (hab.trans hb)
    · change u.custody.manifests.length = 4
      rw [hu.frame.manifests]
      exact hs.table
    · rw [hmanifest] at hm
      rw [hbound]
      exact hs.manifests n m hm
    · rw [hbound] at hn
      rw [hmanifest]
      exact hs.bound n hn
    · rw [hcfg]
      exact hs.ceiling
    · exact hu.frame.isConfigured.trans (configured_of_session hs (by rw [hsession]; decide))
  stopped _ hstopped hseq := by
    have := (hstopped (hu.frame.seq ▸ hseq)).1
    rw [hsession] at this
    cases this
  room hs hocc := by
    have hle := hlength hs
    rw [State.occupancy] at hocc hroom ⊢
    change u.custody.register.length + (u.dock.scans ++ [k]).countP _ ≤ 1024
    rw [hu.frame.scans, List.countP_append, List.countP_singleton]
    split
    · have := hroom ‹_›
      omega
    · omega

theorem not_listFull (h : ¬s.listFull = true) : s.dock.scans.length < 32 :=
  Nat.lt_of_not_le fun hle => h (decide_eq_true hle)

theorem kept_judgeDepartScan {id : Ident} (hsession : s.dock.session = .loading) (hintent : s.dock.intent ≠ some .returning)
    (hnew : s.scanned id = false) : s.CustodyKept (s.judgeDepartScan id) := by
  unfold State.judgeDepartScan
  split
  · exact kept_setVerdict _ _
  · rename_i r hr
    split
    · rename_i p n hst
      split
      · rename_i hmanifest
        split
        · exact kept_setVerdict _ _
        · rename_i hfull
          have hid := key_of_find hr
          have hfind : (s.putRecord (r.enter (.loading p n) s.minute)).find id = some (r.enter (.loading p n) s.minute) :=
            find_putRecord_same s hid
          refine kept_appendScan (k := ⟨id, .record false⟩) (oneChanged_putRecord s hid) rfl hsession hnew ?_ (fun hs => Nat.le_of_eq ?_)
            (fun h => nomatch h) fun hs => ?_
          · exact not_listFull hfull
          · exact length_putBy_of_found Record.id hs.records (found_entered hr _ _)
          · obtain ⟨hpaired, hhold, hready, hlisted, howner, hmember⟩ := hs.fits id
            rw [hr] at hpaired howner hmember
            rw [hfind]
            refine ⟨?_, fun y hy => ?_, ?_, fun _ _ => rfl, fun y k hy hk => ?_, fun k m hm hx => ?_⟩
            · exact (paired_some_iff (by simp [hst, RecState.code]) (by simp [hst, RecState.code]) _).1 hpaired
            · cases hy
              rfl
            · exact bne_iff_ne.2 hintent
            · cases hy
              exact howner r k rfl (by rw [hst]; exact hk)
            · have hready := hmember k m hm hx
              have hkn : k = n := by
                obtain ⟨y, hy, hyk⟩ := memberReady_some hready
                cases hy
                rw [reserved_manifest hst] at hyk
                exact (Option.some.inj hyk).symm
              subst hkn
              have hbound : s.boundManifest = some k := by
                simp [State.boundManifest, hintent, hsession, hmanifest]
              have hin := (hs.manifests k m hm).state.2 (by rw [hbound]; exact beq_self_eq_true _)
              rw [hin]
              exact Bool.and_eq_true_iff.2 ⟨beq_self_eq_true k, rfl⟩
      · exact kept_setVerdict _ _
    · exact kept_setVerdict _ _

theorem kept_judgeReturnScan {id : Ident} (hsession : s.dock.session = .loading) (hintent : s.dock.intent = some .returning)
    (hnew : s.scanned id = false) : s.CustodyKept (s.judgeReturnScan id) := by
  unfold State.judgeReturnScan
  split
  · exact kept_setVerdict _ _
  rename_i hfull
  have hfull := not_listFull hfull
  split
  · rename_i r hr
    have hid := key_of_find hr
    split
    · rename_i c hst
      have hfind : (s.putRecord (r.enter (.returning c) s.minute)).find id = some (r.enter (.returning c) s.minute) :=
        find_putRecord_same s hid
      refine kept_appendScan (oneChanged_putRecord s hid) rfl hsession hnew hfull (fun hs => Nat.le_of_eq ?_)
        (fun h => nomatch h) fun hs => ?_
      · exact length_putBy_of_found Record.id hs.records (found_entered hr _ _)
      · obtain ⟨hpaired, _, _, _, _, hmember⟩ := hs.fits id
        rw [hr] at hpaired hmember
        dsimp only
        rw [hfind]
        refine ⟨?_, fun y hy => ?_, ?_, fun _ _ => rfl, fun y k hy hk => ?_, fun k m hm hx => ?_⟩
        · exact ((atRest_out hst).paired _).1 hpaired
        · cases hy
          rfl
        · exact beq_iff_eq.2 hintent
        · cases hy
          cases hk
        · have hready := hmember k m hm hx
          rw [(free_facts (atRest_out hst).1).2.2.2] at hready
          cases hready
    · exact kept_setVerdict _ _
  · rename_i hr
    refine .ite (fun hroom => ?_) fun _ => kept_setVerdict _ _
    refine kept_appendScan (k := ⟨id, .unregistered⟩) ((State.SameCustody.oneChanged ⟨rfl, rfl, rfl, rfl, rfl, rfl, rfl, rfl, rfl, rfl⟩ id :
      s.OneChanged s id)) rfl hsession hnew hfull (fun _ => Nat.le_refl _) (fun _ => hroom) fun hs => ?_
    obtain ⟨hpaired, _, _, _, _, hmember⟩ := hs.fits id
    rw [hr] at hpaired hmember
    dsimp only
    rw [hr]
    exact ⟨hpaired, fun y hy => (nomatch hy), beq_iff_eq.2 hintent, fun y hy => (nomatch hy), fun y n hy => (nomatch hy), hmember⟩

theorem kept_judgeScan (id : Ident) (hsession : s.dock.session = .loading) : s.CustodyKept (s.judgeScan id) := by
  unfold State.judgeScan
  dsimp only
  refine State.CustodyKept.after ?_ (kept_withDock (d := { s.dock with idleTimer := some s.now }) rfl rfl rfl rfl)
  split
  · exact kept_setVerdict _ _
  split
  · exact kept_setVerdict _ _
  split
  · exact kept_setVerdict _ _
  rename_i hnew
  have hnew := Bool.eq_false_iff.2 hnew
  split
  · rename_i hintent
    exact kept_judgeReturnScan hsession hintent hnew
  · rename_i hintent
    exact kept_judgeDepartScan hsession hintent hnew

end

end Sys2Proof.Machine

namespace Sys2Proof.Machine

/-! ### The commit point -/

section
variable {s : State}

/-- A record as the commit of a DEPART session leaves it (R36, R67). -/
def State.departedRecord (s : State) (identity : CaseIdentity) (r : Record) : Record :=
  releaseMember (s.dock.manifest.getD 0) s.minute
    (departRecord (s.dock.scans.map (·.id)) ⟨identity.caseId, identity.nextCount, s.minute⟩ r)

/-- A record of a DEPART session's commit: scanned and OUT, released to SHELVED, or left alone. -/
theorem departedRecord_cases (s : State) (identity : CaseIdentity) (r : Record) :
    (∃ p n field, r.st = .loading p n ∧ (s.departedRecord identity r).st = .out field) ∨
      (∃ p, r.st = .reserved p (s.dock.manifest.getD 0) ∧ (s.departedRecord identity r).st = .shelved (some p)) ∨
        (r.id ∈ s.dock.scans.map (·.id) → ∀ p n, r.st ≠ .loading p n) ∧ (∀ p, r.st ≠ .reserved p (s.dock.manifest.getD 0)) ∧
          s.departedRecord identity r = r := by
  unfold State.departedRecord
  rcases r with ⟨x, st, e, l, m⟩
  cases st with
  | loading p n =>
    by_cases hx : x ∈ s.dock.scans.map (·.id)
    · exact .inl ⟨p, n, ⟨identity.caseId, identity.nextCount, s.minute⟩, rfl, by
        simp only [departRecord, List.contains_iff_mem, hx, if_true, releaseMember, Record.enter]⟩
    · exact .inr (.inr ⟨fun h => absurd h hx, nofun, by
        simp only [departRecord, List.contains_iff_mem, hx, if_false, releaseMember]⟩)
  | reserved p n =>
    by_cases hn : n = s.dock.manifest.getD 0
    · subst hn
      exact .inr (.inl ⟨p, rfl, by simp [departRecord, releaseMember, Record.enter]⟩)
    · refine .inr (.inr ⟨fun _ => nofun, fun q hq => ?_, by simp [departRecord, releaseMember, hn]⟩)
      cases hq
      exact hn rfl
  | _ => exact .inr (.inr ⟨fun _ => nofun, nofun, rfl⟩)

theorem departedRecord_id (s : State) (identity : CaseIdentity) (r : Record) : (s.departedRecord identity r).id = r.id := by
  rw [State.departedRecord, (sameMovement_releaseMember 0 _ _ _).id]
  unfold departRecord
  split
  · split <;> rfl
  · rfl

/-- A DEPART session's scan list entries name records in LOADING, and every record in LOADING or RETURNING is named. -/
theorem loading_of_depart (hs : s.CustodyCore) (hintent : s.dock.intent ≠ some .returning) {x : Ident} {r : Record} (hr : s.find x = some r)
    (hmoves : r.inMovement = true) : x ∈ s.dock.scans.map (·.id) ∧ ∃ p n, r.st = .loading p n := by
  obtain ⟨k, hk, hid, _⟩ := (hs.fits x).listed r hr hmoves
  refine ⟨List.mem_map.2 ⟨k, hk, hid⟩, ?_⟩
  have hready := (hs.fits x).ready k hk hid
  rw [hr] at hready
  unfold scanReady at hready
  split at hready
  · rename_i y hy
    cases hy
    split at hready
    · rename_i p n hst
      exact ⟨p, n, hst⟩
    · exact absurd (beq_iff_eq.1 hready) hintent
    · cases hready
  · cases ‹some r = none›
  · cases hready

/-- The state after the commit change of a DEPART session, in COMMITTING. -/
def State.departed (s : State) (identity : CaseIdentity) : State :=
  (s.commitDepart identity).withDock { (s.commitDepart identity).dock with session := .committing, scans := [], faults := 0 }

theorem register_departed (s : State) (identity : CaseIdentity) :
    (s.departed identity).custody.register = s.custody.register.map (s.departedRecord identity) := List.map_map

theorem find_departed (identity : CaseIdentity) (x : Ident) :
    (s.departed identity).find x = (s.find x).map (s.departedRecord identity) := by
  rw [State.find, register_departed]
  exact findBy_map Record.id _ (departedRecord_id s identity) x _

theorem manifest?_departed_other (identity : CaseIdentity) {n : Nat} (h : n ≠ s.dock.manifest.getD 0) :
    (s.departed identity).manifest? n = s.manifest? n := manifest?_setManifest_other _ h

/-- The commit frees the bound manifest and leaves the others OPEN. -/
theorem manifest?_departed {identity : CaseIdentity} {n : Nat} {m : Manifest} (hs : s.CustodyCore)
    (hm : (s.departed identity).manifest? n = some m) :
    n ≠ s.dock.manifest.getD 0 ∧ s.manifest? n = some m ∧ m.state = .waiting := by
  have hne : n ≠ s.dock.manifest.getD 0 := by
    rintro rfl
    change ((s.setRegister _).freeManifest _).manifest? _ = some m at hm
    rw [State.freeManifest, manifest?_setManifest_none] at hm
    cases hm
  rw [manifest?_departed_other identity hne] at hm
  exact ⟨hne, hm, waiting_of_unbound hs hm fun hb => hne (by rw [(boundManifest_eq_some hb).1]; rfl)⟩

/-- A record that the commit puts at rest, with no other manifest that needs it. -/
theorem fits_departed_atRest {identity : CaseIdentity} {x : Ident} {r y : Record} (hs : s.CustodyCore) (hr : s.find x = some r)
    (hne7 : r.st.code ≠ 7) (hne8 : r.st.code ≠ 8) (hrest : y.atRest) (hhold : y.holdFits s.cfg.ceiling = true)
    (hnot : ∀ n, n ≠ s.dock.manifest.getD 0 → memberReady n .waiting (some r) = false) :
    (s.departed identity).Fits x (some y) (s.entry x) := by
  obtain ⟨hpaired, _, _, _, _, hmember⟩ := hs.fits x
  rw [hr] at hpaired hmember
  refine ⟨(hrest.paired _).2 ((paired_some_iff hne7 hne8 _).1 hpaired), fun z hz => ?_, fun k hk => absurd hk List.not_mem_nil,
    fun z hz hmoves => ?_, fun z n hz hn => ?_, fun n m hm hx => ?_⟩
  · cases hz
    exact hhold
  · cases hz
    rw [(free_facts hrest.1).2.1] at hmoves
    cases hmoves
  · cases hz
    rw [(free_facts hrest.1).1] at hn
    cases hn
  · obtain ⟨hne, hm', hwaiting⟩ := manifest?_departed hs hm
    have hready := hmember n m hm' hx
    rw [hwaiting, hnot n hne] at hready
    cases hready

/-- A record that the commit leaves alone: not scanned, and not of the bound manifest. -/
theorem fits_departed_same {identity : CaseIdentity} {x : Ident} {r : Record} (hs : s.CustodyCore) (hintent : s.dock.intent ≠ some .returning)
    (hr : s.find x = some r) (hnot : r.id ∈ s.dock.scans.map (·.id) → ∀ p n, r.st ≠ .loading p n)
    (hreserved : ∀ p, r.st ≠ .reserved p (s.dock.manifest.getD 0)) : (s.departed identity).Fits x (some r) (s.entry x) := by
  have hunmoved : r.inMovement = false := Bool.eq_false_iff.2 fun hmoves => by
    obtain ⟨hin, p, n, hst⟩ := loading_of_depart hs hintent hr hmoves
    exact hnot (by rw [key_of_find hr]; exact hin) p n hst
  obtain ⟨hpaired, hhold, _, _, howner, hmember⟩ := hs.fits x
  rw [hr] at hpaired hhold howner hmember
  refine ⟨hpaired, hhold, fun k hk => absurd hk List.not_mem_nil, fun y hy hmoves => ?_, fun y n hy hn => ?_,
    fun n m hm hx => hmember n m (manifest?_departed hs hm).2.1 hx⟩
  · cases hy
    rw [hunmoved] at hmoves
    cases hmoves
  · obtain ⟨m, hm, hx⟩ := howner y n hy hn
    cases hy
    refine ⟨m, (manifest?_departed_other identity ?_).trans hm, hx⟩
    rintro rfl
    have hready := hmember _ m hm hx
    unfold memberReady at hready
    dsimp only at hready
    split at hready
    · rename_i p k hst
      exact hreserved p (by rw [hst, beq_iff_eq.1 hready])
    · rename_i p k hst
      simp [Record.inMovement, hst, RecState.code] at hunmoved
    · cases hready

theorem fits_departed {identity : CaseIdentity} (hs : s.CustodyCore) (hintent : s.dock.intent ≠ some .returning) (x : Ident) :
    (s.departed identity).Fits x ((s.departed identity).find x) ((s.departed identity).entry x) := by
  change (s.departed identity).Fits x ((s.departed identity).find x) (s.entry x)
  rw [find_departed]
  cases hr : s.find x with
  | none =>
    obtain ⟨hpaired, _, _, _, _, hmember⟩ := hs.fits x
    rw [hr] at hpaired hmember
    exact ⟨hpaired, fun _ h => (nomatch h), fun k hk => absurd hk List.not_mem_nil, fun _ h => (nomatch h), fun _ _ h => (nomatch h),
      fun n m hm hx => hmember n m (manifest?_departed hs hm).2.1 hx⟩
  | some r =>
    rw [Option.map_some]
    rcases departedRecord_cases s identity r with ⟨p, n, field, hst, hout⟩ | ⟨p, hst, hshelved⟩ | ⟨hnot, hreserved, hsame⟩
    · exact fits_departed_atRest hs hr (by simp [hst, RecState.code]) (by simp [hst, RecState.code]) (atRest_out hout)
        (by rw [Record.holdFits, hout]) fun k _ => by simp [memberReady, hst]
    · refine fits_departed_atRest hs hr (by simp [hst, RecState.code]) (by simp [hst, RecState.code]) (atRest_shelved hshelved)
        (by rw [Record.holdFits, hshelved]) fun k hk => ?_
      simp only [memberReady, hst]
      exact beq_eq_false_iff_ne.2 (Ne.symm hk)
    · rw [hsame]
      exact fits_departed_same hs hintent hr hnot hreserved

theorem kept_departed (identity : CaseIdentity) (hsession : s.dock.session = .sealing) (hintent : s.dock.intent ≠ some .returning) :
    s.CustodyKept (s.departed identity) where
  core hs := by
    have hunbound : (s.departed identity).boundManifest = none := boundManifest_eq_none nofun nofun
    refine ⟨?_, hs.entries, fits_departed hs hintent, hs.capacity, ⟨Nat.zero_le _, List.nodup_nil, .inl rfl⟩,
      (length_setManifest _ _ _).trans hs.table, fun n m hm => ?_, fun n hn => ?_, hs.ceiling,
      .inl (configured_of_session (s := s) hs (by rw [hsession]; decide))⟩
    · rw [register_departed]
      exact sortedBy_map Record.id _ (departedRecord_id s identity) hs.records
    · obtain ⟨_, hm', hwaiting⟩ := manifest?_departed hs hm
      obtain ⟨hone, hshort, hnodup, _⟩ := hs.manifests n m hm'
      exact ⟨hone, hshort, hnodup, by rw [hwaiting, hunbound]; simp⟩
    · rw [hunbound] at hn
      cases hn
  stopped _ hstopped hseq := ⟨rfl, (hstopped hseq).2⟩
  room _ hocc := by
    rw [State.occupancy] at hocc
    rw [State.occupancy, register_departed, List.length_map]
    exact Nat.le_trans (Nat.add_le_add_left (Nat.zero_le _) _) hocc

/-! ### A RETURN's commit -/

/-- The records put one after the other: the frame and the transfer table stand, and the register stays sorted. -/
theorem foldl_putRecord_frame (l : List Record) (s : State) : s.SameFrame (l.foldl State.putRecord s) ∧
    (l.foldl State.putRecord s).transfer = s.transfer ∧
      (sortedBy Record.id s.custody.register = true → sortedBy Record.id (l.foldl State.putRecord s).custody.register = true) := by
  induction l generalizing s with
  | nil => exact ⟨⟨rfl, rfl, rfl, rfl, rfl, rfl, fun _ h => h, rfl⟩, rfl, fun h => h⟩
  | cons r l ih =>
    obtain ⟨hframe, htransfer, hsorted⟩ := ih (s.putRecord r)
    exact ⟨(sameFrame_setRegister s _).trans hframe, htransfer, fun h => hsorted (sortedBy_putBy Record.id h)⟩

/-- The register gains no more records than the list has identifiers without one. -/
theorem length_foldl_putRecord (l : List Record) (s : State) (hs : sortedBy Record.id s.custody.register = true)
    (hl : (l.map (·.id)).Nodup) : (l.foldl State.putRecord s).custody.register.length ≤
      s.custody.register.length + l.countP fun r => (s.find r.id).isNone := by
  induction l generalizing s with
  | nil => exact Nat.le_refl _
  | cons r l ih =>
    rw [List.map_cons, List.nodup_cons] at hl
    have hrest := ih (s.putRecord r) (sortedBy_putBy Record.id hs) hl.2
    have hcount : (l.countP fun y => ((s.putRecord r).find y.id).isNone) = l.countP fun y => (s.find y.id).isNone := by
      refine List.countP_congr fun y hy => ?_
      have hne : y.id ≠ r.id := fun hid => hl.1 (List.mem_map.2 ⟨y, hy, hid⟩)
      rw [(oneChanged_putRecord s rfl).find y.id hne]
    rw [hcount] at hrest
    rw [List.foldl_cons, List.countP_cons]
    have hput : (s.putRecord r).custody.register.length ≤ s.custody.register.length + if (s.find r.id).isNone then 1 else 0 := by
      cases hr : s.find r.id with
      | none => exact length_putBy_le Record.id _ _
      | some x => exact Nat.le_of_eq (length_putBy_of_found Record.id hs hr)
    omega

/-- A settled record is at rest, its hold within the ceiling (R85). -/
theorem settleEntry_atRest (c : ConfigRecord) (identity : CaseIdentity) (minute : Nat) (e : ScanEntry) (departure : Option CaseField) :
    (settleEntry c identity minute e departure).atRest ∧ (settleEntry c identity minute e departure).holdFits c.ceiling = true := by
  have hceiling (exposure : Nat) : holdFor c exposure ≤ c.ceiling := Nat.min_le_right _ _
  have hsuspect {exposure : Nat} {reason : SuspectReason} {r : Record}
      (hst : r.st = .suspect none (advisedOf (holdFor c exposure)) reason) : r.atRest ∧ r.holdFits c.ceiling = true := by
    refine ⟨atRest_suspect hst, holdFits_suspect hst fun hold hh => ?_⟩
    unfold advisedOf at hh
    split at hh
    · cases hh
      exact ⟨‹_›, hceiling exposure⟩
    · cases hh
  generalize hr : settleEntry c identity minute e departure = r
  have hst : r.st = classify c identity e.kind departure (exposureFor c identity.summary (outMinutes identity minute departure)) := by
    rw [← hr]
    rfl
  unfold classify at hst
  dsimp only at hst
  split at hst
  · split at hst
    · exact hsuspect hst
    split at hst
    · exact hsuspect hst
    split at hst
    · exact hsuspect hst
    split at hst
    · rename_i hpos
      refine ⟨atRest_conditioning hst, ?_⟩
      rw [Record.holdFits, hst]
      exact Bool.and_eq_true_iff.2 ⟨decide_eq_true hpos, decide_eq_true (hceiling _)⟩
    · exact ⟨atRest_shelved hst, by rw [Record.holdFits, hst]⟩
  · exact hsuspect hst

/-- The state after the commit change of a RETURN session, in COMMITTING. -/
def State.returned (s : State) (identity : CaseIdentity) : State :=
  (s.commitReturn identity).withDock { (s.commitReturn identity).dock with session := .committing, scans := [], faults := 0 }

/-- The register, the tables and the frame that a RETURN's commit leaves. -/
theorem returned_tables (s : State) (identity : CaseIdentity) :
    (s.returned identity).custody = ((s.settledRecords identity).foldl State.putRecord s).custody ∧
      (s.returned identity).transfer = s.transfer ∧ (s.returned identity).request = ((s.settledRecords identity).foldl State.putRecord s).request ∧
        (s.returned identity).fire = ((s.settledRecords identity).foldl State.putRecord s).fire := by
  have htransfer := (foldl_putRecord_frame (s.settledRecords identity) s).2.1
  simp [State.returned, State.commitReturn, htransfer]

theorem settledRecords_ids (s : State) (identity : CaseIdentity) : (s.settledRecords identity).map (·.id) = s.dock.scans.map (·.id) := by
  simp [State.settledRecords, settleEntry]

/-- After a RETURN's commit a scanned identifier has a record at rest, and any other what it had. -/
theorem find_returned (hs : s.CustodyCore) (identity : CaseIdentity) (x : Ident) :
    (∃ k ∈ s.dock.scans, k.id = x ∧ ∃ y, (s.returned identity).find x = some y ∧ y.atRest ∧ y.holdFits s.cfg.ceiling = true) ∨
      (∀ k ∈ s.dock.scans, k.id ≠ x) ∧ (s.returned identity).find x = s.find x := by
  have hnodup : ((s.settledRecords identity).map (·.id)).Nodup := settledRecords_ids s identity ▸ hs.scans.nodup
  have hfind := find_foldl_putRecord (s.settledRecords identity) s x hnodup
  have hcustody : (s.returned identity).find x = ((s.settledRecords identity).foldl State.putRecord s).find x := by
    rw [State.find, State.find, (returned_tables s identity).1]
  rw [hcustody]
  cases hx : (s.settledRecords identity).find? (fun r => decide (r.id = x)) with
  | some y =>
    rw [hx] at hfind
    have hid : y.id = x := findBy_key Record.id hx
    obtain ⟨k, hk, rfl⟩ := List.mem_map.1 (List.mem_of_find?_eq_some hx)
    exact .inl ⟨k, hk, hid, _, hfind, settleEntry_atRest _ _ _ _ _⟩
  | none =>
    rw [hx] at hfind
    refine .inr ⟨fun k hk hid => ?_, hfind⟩
    have := List.find?_eq_none.1 hx _ (List.mem_map_of_mem hk)
    exact this (decide_eq_true hid)

/-- A RETURN's scan list entry names a record in RETURNING, or none: no manifest and no transfer entry has the identifier. -/
theorem returning_of_scan (hs : s.CustodyCore) (hintent : s.dock.intent = some .returning) {k : ScanEntry} (hk : k ∈ s.dock.scans) :
    s.entry k.id = none ∧ (∀ n st, memberReady n st (s.find k.id) = false) ∧ ((s.find k.id).isNone = true → k.isUnregistered = true) := by
  obtain ⟨hpaired, _, hready, _, _, _⟩ := hs.fits k.id
  have hready := hready k hk rfl
  unfold scanReady at hready
  split at hready
  · rename_i mismatch r hkind hr
    rw [hr] at hpaired ⊢
    split at hready
    · rw [hintent] at hready
      cases hready
    · rename_i c hst
      exact ⟨(paired_some_iff (by simp [hst, RecState.code]) (by simp [hst, RecState.code]) _).1 hpaired,
        fun n st => by simp [memberReady, hst], fun h => nomatch h⟩
    · cases hready
  · rename_i hkind hr
    rw [hr] at hpaired ⊢
    exact ⟨hpaired, fun _ _ => rfl, fun _ => by rw [ScanEntry.isUnregistered, hkind]; rfl⟩
  · cases hready

theorem kept_returned (identity : CaseIdentity) (hsession : s.dock.session = .sealing) (hintent : s.dock.intent = some .returning) :
    s.CustodyKept (s.returned identity) where
  core hs := by
    obtain ⟨hframe, _, hsorted⟩ := foldl_putRecord_frame (s.settledRecords identity) s
    obtain ⟨hcustody, htransfer, hrequest, _⟩ := returned_tables s identity
    have hmanifests : (s.returned identity).custody.manifests = s.custody.manifests := by rw [hcustody, hframe.manifests]
    have hmanifest (n : Nat) : (s.returned identity).manifest? n = s.manifest? n := by rw [State.manifest?, State.manifest?, hmanifests]
    have hconfig : (s.returned identity).request.config = s.request.config := by rw [hrequest, hframe.config]
    have hcfg : (s.returned identity).cfg = s.cfg := by rw [State.cfg, State.cfg, hconfig]
    have hentry (x : Ident) : (s.returned identity).entry x = s.entry x := by rw [State.entry, State.entry, htransfer]
    have hunbound : (s.returned identity).boundManifest = none := boundManifest_eq_none nofun nofun
    have hunbound' : s.boundManifest = none := by simp [State.boundManifest, hintent]
    refine ⟨?_, ?_, fun x => ?_, ?_, ⟨Nat.zero_le _, List.nodup_nil, .inl rfl⟩, ?_, fun n m hm => ?_, fun n hn => ?_, ?_, .inl ?_⟩
    · rw [hcustody]
      exact hsorted hs.records
    · rw [htransfer]
      exact hs.entries
    · obtain ⟨hpaired, hhold, _, hlisted, howner, hmember⟩ := hs.fits x
      rw [hentry]
      obtain ⟨k, hk, rfl, y, hy, hrest, hyhold⟩ | ⟨hnot, hsame⟩ := find_returned hs identity x
      · obtain ⟨hnone, hnever, _⟩ := returning_of_scan hs hintent hk
        rw [hy]
        refine ⟨(hrest.paired _).2 hnone, fun z hz => ?_, fun k hk => absurd hk List.not_mem_nil, fun z hz hmoves => ?_,
          fun z n hz hn => ?_, fun n m hm hx => ?_⟩
        · cases hz
          rw [hcfg]
          exact hyhold
        · cases hz
          rw [(free_facts hrest.1).2.1] at hmoves
          cases hmoves
        · cases hz
          rw [(free_facts hrest.1).1] at hn
          cases hn
        · rw [hmanifest] at hm
          have := hmember n m hm hx
          rw [hnever] at this
          cases this
      · rw [hsame]
        refine ⟨hpaired, by rw [hcfg]; exact hhold, fun k hk => absurd hk List.not_mem_nil, fun y hy hmoves => ?_,
          by simpa only [hmanifest] using howner, by simpa only [hmanifest] using hmember⟩
        obtain ⟨k, hk, hid, _⟩ := hlisted y hy hmoves
        exact absurd hid (hnot k hk)
    · rw [htransfer]
      exact hs.capacity
    · rw [hmanifests]
      exact hs.table
    · rw [hmanifest] at hm
      rw [hunbound, ← hunbound']
      exact hs.manifests n m hm
    · rw [hunbound] at hn
      cases hn
    · rw [hcfg]
      exact hs.ceiling
    · rw [State.configured, hconfig]
      exact configured_of_session (s := s) hs (by rw [hsession]; decide)
  stopped _ hstopped hseq := by
    obtain ⟨hframe, _, _⟩ := foldl_putRecord_frame (s.settledRecords identity) s
    obtain ⟨_, htransfer, _, hfire⟩ := returned_tables s identity
    rw [hfire, hframe.seq] at hseq
    rw [htransfer]
    exact ⟨rfl, (hstopped hseq).2⟩
  room hs hocc := by
    have hlength := length_foldl_putRecord (s.settledRecords identity) s hs.records
      (settledRecords_ids s identity ▸ hs.scans.nodup)
    have hcount : ((s.settledRecords identity).countP fun r => (s.find r.id).isNone) ≤ s.dock.scans.countP ScanEntry.isUnregistered := by
      rw [State.settledRecords, List.countP_map]
      exact List.countP_mono_left fun k hk hnone => (returning_of_scan hs hintent hk).2.2 hnone
    rw [State.occupancy] at hocc
    rw [State.occupancy, (returned_tables s identity).1]
    change _ + 0 ≤ 1024
    omega

theorem kept_commitPoint (identity : CaseIdentity) (hsession : s.dock.session = .sealing) : s.CustodyKept (s.commitPoint identity) := by
  refine .of_core fun hs => ?_
  have hready : s.dock.scans.all s.entryReady = true := by
    rw [List.all_eq_true]
    intro k hk
    rw [entryReady_eq]
    exact (hs.fits k.id).ready k hk rfl
  unfold State.commitPoint
  rw [if_pos hready]
  dsimp only
  split
  · rename_i hintent
    exact kept_returned identity hsession hintent
  · rename_i hintent
    exact kept_departed identity hsession hintent

/-! ### Case answers -/

theorem kept_judgeEcho (count : Byte) (digest : Word16) (hsession : s.dock.session = .sealing) :
    s.CustodyKept (s.judgeEcho count digest) := by
  unfold State.judgeEcho
  split
  · split
    · exact kept_commitPoint _ hsession
    · exact kept_endUncommitted s _
  · exact kept_endUncommitted s _

theorem kept_actOn (s : State) (f : CaseFrame) : s.CustodyKept (s.actOn f) := by
  unfold State.actOn
  split
  · exact kept_identify ‹_›
  · exact kept_beginAuth s _ _ _ _ _ ‹_›
  · exact kept_judgeScan _ ‹_›
  · exact kept_setVerdict s _
  · exact kept_judgeEcho _ _ ‹_›
  · exact .ite (fun _ => kept_endCommitted _ ‹_›) fun _ => kept_endCommitted _ ‹_›
  · exact .refl s

theorem kept_judgeAnswer (s : State) (sent : DockFrame) (answer : Option CaseFrame) : s.CustodyKept (s.judgeAnswer sent answer) := by
  unfold State.judgeAnswer
  split
  · exact .ite (fun _ => (kept_actOn _ _).after (kept_withDock (d := { s.dock with faults := 0 }) rfl rfl rfl rfl)) fun _ => kept_frameFault s
  · exact kept_frameFault s

theorem kept_hearCase (s : State) (answer : Option CaseFrame) : s.CustodyKept (s.hearCase answer) := by
  unfold State.hearCase
  split
  · exact .refl s
  · exact .ite (fun _ => .refl s) fun _ => .ite (fun _ => (still_endExchange s).kept) fun _ =>
      (still_sendAtOnce _).kept.after ((kept_judgeAnswer _ _ _).after (still_endExchange s).kept)

theorem kept_answerTimesOut (s : State) : s.CustodyKept s.answerTimesOut := by
  unfold State.answerTimesOut
  split
  · exact .refl s
  · exact .ite (fun _ => (still_endExchange s).kept) fun _ => (kept_judgeAnswer _ _ _).after (still_endExchange s).kept

theorem kept_timerEnds (s : State) (q : SessionState) (o : SessionOutcome) :
    s.CustodyKept (if s.dock.session = q then s.endUncommitted o else s) := .ite (fun _ => kept_endUncommitted s o) fun _ => .refl s

end

end Sys2Proof.Machine

namespace Sys2Proof.Machine

/-! ### The fire sequence -/

section
variable {s : State}

/-- The fire unit does not enter the invariant but for the stop of movement. -/
theorem core_withFire (f : FireUnit) (hs : s.CustodyCore) : (s.withFire f).CustodyCore :=
  ⟨hs.records, hs.entries,
    fun x => have h := hs.fits x; ⟨h.paired, h.hold, h.ready, h.listed, h.owner, h.member⟩,
    hs.capacity, hs.scans, hs.table, hs.manifests, hs.bound, hs.ceiling, hs.configured⟩

/-- A change of the fire unit that enters no confirmed state. -/
theorem kept_withFire (f : FireUnit) (h : 3 ≤ seqCode f.seq → 3 ≤ seqCode s.fire.seq) : s.CustodyKept (s.withFire f) :=
  ⟨core_withFire f, fun _ hstopped hseq => hstopped (h hseq), fun _ hocc => hocc⟩

theorem sameCustody_enterSeq (s : State) (q : Seq) (c : FireCause) :
    (s.withFire (s.fire.inSeq q s.cfg s.now)).SameCustody (s.enterSeq q c) := by
  refine ⟨?_, ?_, ?_, ?_, ?_, ?_, ?_, ?_, ?_, ?_⟩
  all_goals simp [State.enterSeq, State.refreshFireOutputs]

theorem kept_enterSeq {q : Seq} (c : FireCause) (h : 3 ≤ seqCode q → 3 ≤ seqCode s.fire.seq) : s.CustodyKept (s.enterSeq q c) :=
  (sameCustody_enterSeq s q c).kept.after (kept_withFire _ h)

/-- The entry to confirmation: the session before its commit point has ended and no offer stands (R72, R155). -/
theorem kept_enterConfirmation (s : State) : s.CustodyKept s.enterConfirmation := by
  have hends (t : State) : t.CustodyKept (t.fireEndsSession.withdrawOffers) :=
    (kept_withdrawOffers _).after (.ite (fun _ => kept_endUncommitted t _) fun _ => .refl t)
  have hentered (q : Seq) (c : FireCause) (hs : s.CustodyCore) : (s.enterSeq q c).CustodyCore :=
    (sameCustody_enterSeq s q c).kept.core (core_withFire _ hs)
  refine ⟨fun hs => (hends _).core (hentered _ _ hs), fun _ _ _ => ⟨enterConfirmation_dock s, enterConfirmation_offers s⟩,
    fun hs hocc => (hends _).room (hentered _ _ hs) ?_⟩
  have hsame := sameCustody_enterSeq s (if s.fire.holdOn || s.fire.isolateOn then .confirmed else .preDischarge)
    (if s.confirmationCondition then .confirmation else .manualCall)
  rw [State.occupancy, hsame.register, hsame.scans]
  exact hocc

theorem kept_evaluate (s : State) : s.CustodyKept s.evaluate := by
  rcases evaluate_cases s with ⟨_, h⟩ | ⟨c, hlt, _, h⟩ | ⟨_, _, h⟩ <;> rw [h]
  · exact .refl s
  · exact kept_enterSeq c fun hge => absurd hge (Nat.not_le.2 hlt)
  · exact kept_enterConfirmation s

theorem kept_judgeSwitches (s : State) : s.CustodyKept s.judgeSwitches := by
  unfold State.judgeSwitches
  split
  · rename_i hq
    exact .ite (fun _ => .refl s) fun _ => kept_enterSeq _ fun _ => by rw [hq]; decide
  · rename_i hq
    exact .ite (fun _ => kept_enterSeq _ fun _ => by rw [hq]; decide) fun _ => .refl s
  · exact kept_evaluate s

theorem kept_channelChanges (s : State) (k : Nat) (c : ChannelState) : s.CustodyKept (s.channelChanges k c) := by
  have hrecorded := (still_recordChannel s k c).kept
  exact (kept_evaluate _).after (.ite (fun _ => (still_emit _ _).kept.after hrecorded) fun _ => hrecorded)

theorem kept_callOperated (s : State) : s.CustodyKept s.callOperated := by
  unfold State.callOperated
  refine (kept_evaluate _).after (still_recordInputs s _ _ ?_ ?_ ?_).kept
  · rfl
  · rfl
  · exact id

theorem kept_countdownExpires (s : State) : s.CustodyKept s.countdownExpires := by
  unfold State.countdownExpires
  split
  · rename_i hq
    exact (still_emit _ _).kept.after (kept_enterSeq _ fun _ => by rw [hq]; decide)
  · exact .refl s

theorem kept_pulseEnds (s : State) : s.CustodyKept s.pulseEnds := by
  unfold State.pulseEnds
  split
  · rename_i hq
    exact kept_enterSeq _ fun _ => by rw [hq]; decide
  · exact .refl s

theorem kept_soakEnds (s : State) : s.CustodyKept s.soakEnds := by
  unfold State.soakEnds
  split
  · rename_i hq
    exact kept_enterSeq _ fun _ => by rw [hq]; decide
  · exact .refl s

theorem kept_fireResetReply (r : Request) : s.CustodyKept (fireResetReply r s).state := by
  unfold fireResetReply
  split
  · exact .refl s
  · exact .refl s
  · exact .refl s
  · exact .refl s
  · split
    · exact .refl s
    · refine State.CustodyKept.after (kept_enterSeq (q := .quiet) .fireReset ?_) (kept_withFire (s := s) { s.fire with callLatch := false } id)
      exact fun h => absurd h (by decide)

theorem kept_inputSurvey (s : State) : s.CustodyKept s.inputSurvey := by
  rw [inputSurvey_eq s _ rfl]
  exact (kept_evaluate _).after ((still_emitAll _ _).kept.after (kept_withFire (s.fire.surveyed s.pins) id))

/-! ### Resets -/

/-- A record in a sorted register after a change that may delete: what the change makes of the record that was there. -/
theorem findBy_filterMap {l : List Record} {f : Record → Option Record} (hs : sortedBy Record.id l = true)
    (hf : ∀ x y, f x = some y → y.id = x.id) (id : Ident) : findBy Record.id id (l.filterMap f) = (findBy Record.id id l).bind f := by
  have hunique (x : Record) (hx : x ∈ l) (hid : x.id = id) : findBy Record.id id l = some x := hid ▸ findBy_of_mem Record.id hs hx
  cases hy : (findBy Record.id id l).bind f with
  | some y =>
    obtain ⟨x, hx, hfx⟩ := Option.bind_eq_some_iff.1 hy
    have hid : y.id = id := (hf x y hfx).trans (findBy_key Record.id hx)
    have hmem : y ∈ l.filterMap f := List.mem_filterMap.2 ⟨x, findBy_mem Record.id hx, hfx⟩
    exact hid ▸ findBy_of_mem Record.id (sortedBy_filterMap Record.id f hf hs) hmem
  | none =>
    refine (findBy_eq_none Record.id).2 fun y hmem hid => ?_
    obtain ⟨x, hx, hfx⟩ := List.mem_filterMap.1 hmem
    rw [hunique x hx ((hf x y hfx).symm.trans hid), Option.bind_some, hfx] at hy
    cases hy

/-- A normalised record keeps its identifier, is at rest, and its hold lies in its range (R23). -/
theorem normaliseRecord_facts {entries : List TransferEntry} {ceiling minute : Nat} {r y : Record}
    (h : normaliseRecord entries ceiling minute r = some y) :
    y.id = r.id ∧ (r.holdFits ceiling = true → y.atRest ∧ y.holdFits ceiling = true) := by
  unfold normaliseRecord at h
  split at h
  · rename_i hst
    cases h
    exact ⟨rfl, fun hh => ⟨atRest_shelved hst, hh⟩⟩
  · cases h
    exact ⟨rfl, fun _ => ⟨atRest_shelved rfl, rfl⟩⟩
  · cases h
    exact ⟨rfl, fun _ => ⟨atRest_shelved rfl, rfl⟩⟩
  · rename_i hst
    cases h
    exact ⟨rfl, fun hh => ⟨atRest_out hst, hh⟩⟩
  · cases h
    exact ⟨rfl, fun _ => ⟨atRest_out rfl, rfl⟩⟩
  · rename_i hst
    cases h
    exact ⟨rfl, fun hh => ⟨atRest_conditioning hst, hh⟩⟩
  · rename_i hst
    cases h
    exact ⟨rfl, fun hh => ⟨atRest_suspect hst, hh⟩⟩
  · rename_i p restore hst
    split at h
    · cases h
      simp only [loseRecord, hst]
      exact ⟨rfl, fun hh => ⟨atRest_suspect rfl, holdFits_suspect rfl (restore_hold_fits hst hh)⟩⟩
    · cases h
      exact ⟨rfl, fun hh => holdFits_back rfl (restore_hold_fits hst hh)⟩
  · cases h

theorem manifest?_warmCleared (s : State) (n : Nat) : s.warmCleared.manifest? n = none := by
  cases hm : s.warmCleared.manifest? n with
  | none => rfl
  | some m =>
    have hn := manifest?_bounds (s := s.warmCleared) rfl hm
    simp only [List.mem_cons, List.not_mem_nil, or_false] at hn
    rcases hn with rfl | rfl | rfl | rfl <;> cases hm

theorem find_warmCleared (hs : s.CustodyCore) (x : Ident) :
    s.warmCleared.find x = (s.find x).bind (normaliseRecord s.transfer.entries s.cfg.ceiling s.minute) :=
  findBy_filterMap hs.records (fun _ _ h => (normaliseRecord_facts h).1) x

theorem kept_warmCleared (s : State) : s.CustodyKept s.warmCleared where
  core hs := by
    have hunbound : s.warmCleared.boundManifest = none := boundManifest_eq_none nofun nofun
    have hrest {x : Ident} {y : Record} (hy : s.warmCleared.find x = some y) : y.atRest ∧ y.holdFits s.cfg.ceiling = true := by
      rw [find_warmCleared hs, Option.bind_eq_some_iff] at hy
      obtain ⟨r, hr, hry⟩ := hy
      exact (normaliseRecord_facts hry).2 ((hs.fits x).hold r hr)
    refine ⟨sortedBy_filterMap Record.id _ (fun _ _ h => (normaliseRecord_facts h).1) hs.records, rfl,
      fun x => ⟨?_, fun y hy => (hrest hy).2, fun k hk => absurd hk List.not_mem_nil, fun y hy hmoves => ?_, fun y n hy hn => ?_,
        fun n m hm => ?_⟩,
      Nat.zero_le _, ⟨Nat.zero_le _, List.nodup_nil, .inl rfl⟩, rfl, fun n m hm => ?_, fun n hn => ?_, hs.ceiling, ?_⟩
    · cases hx : s.warmCleared.find x with
      | none => rfl
      | some y => exact ((hrest hx).1.paired _).2 rfl
    · rw [(free_facts (hrest hy).1.1).2.1] at hmoves
      cases hmoves
    · rw [(free_facts (hrest hy).1.1).1] at hn
      cases hn
    · rw [manifest?_warmCleared] at hm
      cases hm
    · rw [manifest?_warmCleared] at hm
      cases hm
    · rw [hunbound] at hn
      cases hn
    · exact hs.configured.imp_right fun ⟨hnone, _⟩ => ⟨fun x => by rw [find_warmCleared hs, hnone]; rfl, rfl, rfl⟩
  stopped _ _ hseq := absurd hseq (by simp [State.warmCleared, coldFire, seqCode])
  room _ hocc := by
    rw [State.occupancy] at hocc
    exact Nat.le_trans (Nat.add_le_add (List.length_filterMap_le _ _) (Nat.zero_le _)) hocc

theorem kept_warmReset (s : State) (cause : ResetCause) : s.CustodyKept (s.warmReset cause) :=
  (kept_inputSurvey _).after ((still_emit _ _).kept.after (kept_warmCleared s))

theorem kept_requestedReset (s : State) : s.CustodyKept s.requestedReset := by
  unfold State.requestedReset
  split
  · exact .refl s
  · exact kept_warmReset s _

/-- The cold values of the blocks meet the invariant, with an empty register. -/
theorem kept_coldStarted (s : State) : s.CustodyKept s.coldStarted := by
  refine (kept_inputSurvey _).after ?_
  have hheld : (State.cold s.pins 0 s.free s.pending).custodyHeld = true := rfl
  obtain ⟨hcore, hstopped⟩ := (custodyHeld_iff _).1 hheld
  exact ⟨fun _ => hcore, fun _ _ => hstopped, fun _ _ => Nat.zero_le _⟩

/-! ### Configuration -/

/-- A configuration set on a station that has none: it has no record either, so every hold fits the new ceiling. -/
theorem kept_setConfig {config : ConfigRecord} (sender : Nat) (h : s.configured = false) (hc : 1 ≤ config.ceiling) :
    s.CustodyKept (s.withRequest { s.request with config := some config, gateway := some sender }) where
  core hs := by
    have hnone (x : Ident) : s.find x = none := by
      rcases hs.configured with hyes | ⟨hnone, _⟩
      · rw [h] at hyes
        cases hyes
      · exact hnone x
    refine ⟨hs.records, hs.entries, fun x => ?_, hs.capacity, hs.scans, hs.table, hs.manifests, hs.bound, hc, .inl rfl⟩
    obtain ⟨hpaired, _, hready, hlisted, howner, hmember⟩ := hs.fits x
    refine ⟨hpaired, fun y hy => ?_, hready, hlisted, howner, hmember⟩
    have := (hnone x).symm.trans hy
    cases this
  stopped _ h := h
  room _ h := h

theorem kept_configureFire (s : State) (before : List Group) : s.CustodyKept (s.configureFire before) :=
  (kept_evaluate _).after ((still_emitAll _ _).kept.after (still_judgeNeighbours s).kept)

theorem low_le_clampTo {low high : Nat} (h : low ≤ high) (v : Int) : low ≤ clampTo low high v := by
  unfold clampTo
  split
  · exact Nat.le_refl _
  · split
    · exact h
    · omega

/-- The hold ceiling that a CONFIGURE gives is at least 60 (R182). -/
theorem configFrom_ceiling (own sender : Nat) (entries : List ConfigEntry) : 1 ≤ (configFrom own sender entries).ceiling := by
  change 1 ≤ NumericItem.value ⟨10, 60, 10080, 10080⟩ entries
  unfold NumericItem.value
  split
  · decide
  · exact Nat.le_trans (show 1 ≤ 60 by decide) (low_le_clampTo (by decide) _)

theorem kept_configureReply (r : Request) : s.CustodyKept (configureReply r s).state := by
  unfold configureReply
  split
  · exact .refl s
  · rename_i h
    dsimp only
    unfold State.acceptConfigure
    exact (kept_configureFire _ _).after ((still_configureClimate _).kept.after ((still_configureNotices _).kept.after
      ((still_configureLine _).kept.after (kept_setConfig _ (Bool.eq_false_iff.2 h) (configFrom_ceiling _ _ _)))))

/-! ### The line -/

theorem kept_finishItem (s : State) (item : SlotItem) (o : SendOutcome) : s.CustodyKept (s.finishItem item o) := by
  cases item with
  | beacon b => exact .refl s
  | notice source => exact (still_noticeOutcome s _ _).kept
  | peer m => exact (kept_peerOutcome m o).after (still_popPeerOut s).kept
  | answer a => exact (still_popAnswer s).kept

theorem kept_finishSending (s : State) (sent : Sending) (o : SendOutcome) : s.CustodyKept (s.finishSending sent o) :=
  (kept_finishItem _ _ _).after (still_withLine_same s { s.line with sending := none } rfl rfl rfl rfl rfl rfl).kept

theorem kept_slotEnds (s : State) (same accept refuse : Bool) : s.CustodyKept (s.slotEnds same accept refuse) := by
  unfold State.slotEnds
  split
  · exact .refl s
  · rename_i sent _
    have hfinished : s.CustodyKept ((s.readBackConflict (same && !sent.conflict)).finishSending sent
        (slotOutcome (same && !sent.conflict) accept refuse)) :=
      (kept_finishSending _ _ _).after (still_readBackConflict s _).kept
    exact .ite (fun _ => (kept_requestedReset _).after hfinished) fun _ => hfinished

theorem kept_hearMark (s : State) (mark : Byte) : s.CustodyKept (s.hearMark mark) := by
  unfold State.hearMark
  split
  · exact (still_takeMark s mark).kept
  · rename_i sent _
    have hmarked : s.CustodyKept ((s.finishSending sent .unanswered).takeMark mark) :=
      (still_takeMark _ _).kept.after (kept_finishSending s _ _)
    exact .ite (fun _ => (kept_requestedReset _).after hmarked) fun _ => hmarked

theorem kept_cycleTimerEnds (s : State) (readBack : Byte) : s.CustodyKept (s.cycleTimerEnds readBack) :=
  (kept_hearMark _ _).after (still_withLine_same s { s.line with markSent := some (markByte ((s.line.cycle + 1) % 10)) }
    rfl rfl rfl rfl rfl rfl).kept

/-- The peer input queue of a CONFIGURED station does not enter the invariant. -/
theorem kept_withLine (l : LineUnit) (hc : s.configured = true) : s.CustodyKept (s.withLine l) where
  core hs := State.SameFrame.core (s := s) ⟨rfl, rfl, rfl, rfl, rfl, rfl, fun h => absurd hc (by rw [h]; decide), rfl⟩ hs hs.records hs.entries
    hs.capacity hs.fits (.inl hc)
  stopped _ h := h
  room _ h := h

theorem kept_admitPeer (s : State) (slot : Nat) (kind : PeerKind) (f : SlotFrame) : s.CustodyKept (s.admitPeer slot kind f) :=
  .ite (fun h => (still_drive _ _).kept.after (kept_withLine _ (Bool.and_eq_true_iff.1 h).1)) fun _ => (still_drive s _).kept

theorem kept_judgeMessage (s : State) (slot : Nat) (kind : Byte) (f : SlotFrame) : s.CustodyKept (s.judgeMessage slot kind f) := by
  unfold State.judgeMessage
  split
  · exact (still_admitRequest s _ _).kept
  · exact (still_drive s _).kept
  · exact (still_drive s _).kept
  · split
    · exact kept_admitPeer s _ _ _
    · exact (still_drive s _).kept

theorem kept_hearSlot (s : State) (slot : Nat) (kind : Byte) (f : SlotFrame) : s.CustodyKept (s.hearSlot slot kind f) := by
  have hother : s.CustodyKept (s.hearOther slot kind f) := by
    unfold State.hearOther
    split
    · split
      · exact (still_hearBeacon _ _ _).kept.after (still_drive s _).kept
      · exact .ite (fun _ => kept_judgeMessage s _ _ _) fun _ => (still_drive s _).kept
    · exact (still_drive s _).kept
  exact .ite (fun _ => .ite (fun _ => (still_hearOwnSlot s _ _).kept) fun _ => hother) fun _ => .refl s

/-! ### Requests taken -/

theorem kept_queueAnswer (s : State) (a : Answer) : s.CustodyKept (s.queueAnswer a) :=
  State.SameCustody.kept ⟨rfl, rfl, rfl, rfl, rfl, rfl, rfl, rfl, rfl, rfl⟩

/-- A request taken keeps custody where its owner does so on the states in which it is judged (R178). -/
theorem kept_takeRequest (kind : RequestKind) (fits : List Byte → Bool) {owner : Request → State → Reply}
    (howner : ∀ (r : Request) (t : State), (t.configured = true ∨ kind = .configure ∨ kind = .queryZone) → t.CustodyKept (owner r t).state) :
    s.CustodyKept (s.takeRequest kind fits owner) := by
  unfold State.takeRequest
  split
  · exact .refl s
  · rename_i r _
    refine .ite (fun _ => (kept_queueAnswer _ _).after (State.CustodyKept.after ?_ (still_popRequest s).kept)) fun _ => .refl s
    unfold judgeRequest
    split
    · exact .refl _
    · rename_i hkind
      split
      · exact .refl _
      · split
        · exact .refl _
        · refine howner r _ ?_
          by_cases hc : s.popRequest.configured = true
          · exact .inl hc
          · simp only [Bool.and_eq_true, Bool.not_eq_true', bne_iff_ne, not_and, not_not] at hkind
            exact .inr (Decidable.or_iff_not_imp_left.2 fun h => hkind ⟨Bool.eq_false_iff.2 hc, h⟩)

theorem kept_takeUnknown (s : State) : s.CustodyKept s.takeUnknown := by
  unfold State.takeUnknown
  split
  · exact .refl s
  · split
    · exact .refl s
    · split
      · exact (still_withFree _ _).kept.after ((kept_queueAnswer _ _).after (still_popRequest s).kept)
      · exact (kept_queueAnswer _ _).after (still_popRequest s).kept

/-! ### Settling -/

theorem kept_settle (s : State) : s.CustodyKept s.settle :=
  (State.Still.repeatStep still_absentOne _ _).kept.after ((still_superframeStep _).kept.after
    ((State.CustodyKept.repeatStep kept_abandonOne _ _).after ((State.CustodyKept.repeatStep kept_expireOneTransit _ _).after
      (.repeatStep kept_expireManifestStep _ s))))

end

end Sys2Proof.Machine

namespace Sys2Proof.Machine

/-! ### Every command keeps custody -/

section
variable {s t : State}

/-- A command taken on the settled state keeps custody where its effect does. -/
theorem taken_kept {effect : State → State} (h : ∀ u : State, u.CustodyKept (effect u)) (ht : taken s effect = .next t) :
    s.CustodyKept t := by
  cases ht
  exact (h _).after (kept_settle s)

/-- A row that takes the requests of a kind keeps custody where their owner does so on a CONFIGURED station. -/
theorem taken_request_kept {kind : RequestKind} {fits : List Byte → Bool} {owner : Request → State → Reply}
    (h : ∀ (r : Request) (u : State), (u.configured = true ∨ kind = .configure ∨ kind = .queryZone) → u.CustodyKept (owner r u).state)
    (ht : taken s (fun u => u.takeRequest kind fits owner) = .next t) : s.CustodyKept t :=
  taken_kept (fun _ => kept_takeRequest kind fits h) ht

/-- A follow-on step keeps custody where it does so on the state as it stands. -/
theorem next_kept {u : State} (h : s.CustodyKept u) (ht : (.next u : Host.Outcome State Fault Refusal) = .next t) : s.CustodyKept t := by
  cases ht
  exact h

/-- An ENROL is judged on a CONFIGURED station alone. -/
theorem kept_enrolReply_of_judged (r : Request) (u : State) (h : u.configured = true ∨ RequestKind.enrol = .configure ∨ RequestKind.enrol = .queryZone) :
    u.CustodyKept (enrolReply r u).state :=
  kept_enrolReply r (h.resolve_right (by decide))

theorem exec_kept (c : Instr) (h : exec c s = .next t) : s.CustodyKept t := by
  cases c with
  | coldStart => exact next_kept (kept_coldStarted s) h
  | warmReset => exact taken_kept (fun u => kept_warmReset u _) h
  | zoneClockSecond => exact taken_kept (fun u => (kept_second _).after ((kept_settle _).after (kept_minuteStep u))) h
  | minuteEvent => exact taken_kept kept_minuteStep h
  | manifestExpiry => exact next_kept (kept_expireManifestStep s) h
  | rollover => exact next_kept (kept_rolloverStep s) h
  | conditioningComplete => exact next_kept (kept_completeStep s) h
  | enrol => exact taken_request_kept kept_enrolReply_of_judged h
  | retire => exact taken_request_kept (fun r _ _ => kept_retireReply r) h
  | shelve => exact taken_request_kept (fun r _ _ => kept_shelveReply r) h
  | queryRecord => exact taken_request_kept (fun r _ _ => kept_queryRecordReply r) h
  | releaseSuspectShelve => exact taken_request_kept (fun r _ _ => kept_releaseShelveReply r) h
  | releaseSuspectCondition => exact taken_request_kept (fun r _ _ => kept_releaseConditionReply r) h
  | releaseSuspectRemove => exact taken_request_kept (fun r _ _ => kept_releaseRemoveReply r) h
  | checkOut => exact taken_request_kept (fun r _ _ => kept_checkOutReply r) h
  | cancelManifest => exact taken_request_kept (fun r _ _ => kept_cancelManifestReply r) h
  | authorize => exact taken_request_kept (fun r _ _ => kept_authorizeReply r) h
  | deny => exact taken_request_kept (fun r _ _ => kept_denyReply r) h
  | move => exact taken_request_kept (fun r _ _ => kept_moveReply r) h
  | queryZone => exact taken_request_kept (fun _ u _ => (still_withFree u _).kept) h
  | excursionClear =>
    exact taken_request_kept (fun _ u _ => State.SameCustody.kept ⟨rfl, rfl, rfl, rfl, rfl, rfl, rfl, rfl, rfl, rfl⟩) h
  | fireReset => exact taken_request_kept (fun r _ _ => kept_fireResetReply r) h
  | configure => exact taken_request_kept (fun r _ _ => kept_configureReply r) h
  | reset => exact taken_request_kept (fun _ u _ => (still_setResetWait u _).kept) h
  | unknownRequest => exact taken_kept kept_takeUnknown h
  | resetAnswerTimeout => exact taken_kept kept_requestedReset h
  | keyTurn on => exact taken_kept (fun u => (still_withPins u { u.pins with keyOn := on }).kept) h
  | cycleMark mark => exact taken_kept (fun u => kept_hearMark u mark) h
  | cycleTimerExpiry readBack => exact taken_kept (fun u => kept_cycleTimerEnds u readBack) h
  | superframeEnd => exact next_kept (still_superframeStep s).kept h
  | peerAbsent a => exact next_kept (still_makeAbsent s a.val).kept h
  | alarmField others => exact taken_kept (fun u => (still_alarmFieldRead u others).kept) h
  | beaconReceived slot f => exact taken_kept (fun u => kept_hearSlot u slot.val 1 f) h
  | requestReceived slot f => exact taken_kept (fun u => kept_hearSlot u slot.val 2 f) h
  | peerMessageReceived slot kind f => exact taken_kept (fun u => kept_hearSlot u slot.val (peerKindByte kind) f) h
  | ignoredMessage slot kind f => exact taken_kept (fun u => kept_hearSlot u slot.val (ignoredKindByte kind) f) h
  | unknownKindMessage slot kind f => exact taken_kept (fun u => kept_hearSlot u slot.val kind f) h
  | addressConflict sign => exact taken_kept (fun u => (still_conflictShows u sign).kept) h
  | slotStart => exact taken_kept (fun u => (still_slotStarts u).kept) h
  | slotEnd same accept refuse => exact taken_kept (fun u => kept_slotEnds u same accept refuse) h
  | offer => exact taken_kept (fun _ => kept_takePeer .offer fun m _ hroom hc => kept_takeOffer m hroom hc) h
  | take => exact taken_kept (fun _ => kept_takePeer .take fun m _ hroom _ => kept_takeTake m hroom) h
  | decline => exact taken_kept (fun _ => kept_takePeer .decline fun m _ _ _ => kept_takeDecline m) h
  | withdraw => exact taken_kept (fun _ => kept_takePeer .withdraw fun m _ _ _ => kept_takeWithdraw m) h
  | arrived => exact taken_kept (fun _ => kept_takePeer .arrived fun m _ _ _ => kept_takeArrived m) h
  | offerWaitExpiry id => exact taken_kept (fun _ => kept_offerWaitEnds id) h
  | transitLimitExpiry id => exact next_kept (kept_transitLimitEnds id) h
  | inboundTransitExpiry id => exact next_kept (kept_inboundTransitEnds id) h
  | caseArrival => exact taken_kept kept_caseArrives h
  | caseRemoval => exact taken_kept kept_caseLeaves h
  | closeKey => exact taken_kept kept_closePressed h
  | cancelKey => exact taken_kept kept_cancelPressed h
  | dockFrameSend => exact taken_kept (fun u => (still_sendNext u).kept) h
  | dockAnswerTimeout => exact taken_kept kept_answerTimesOut h
  | malformedCaseFrame bytes => exact taken_kept (fun u => kept_hearCase u _) h
  | awake => exact taken_kept (fun u => kept_hearCase u _) h
  | identity caseId badge count intent intervals => exact taken_kept (fun u => kept_hearCase u _) h
  | scan id => exact taken_kept (fun u => kept_hearCase u _) h
  | nothing => exact taken_kept (fun u => kept_hearCase u _) h
  | echo count digest => exact taken_kept (fun u => kept_hearCase u _) h
  | done count => exact taken_kept (fun u => kept_hearCase u _) h
  | wakingTimeout => exact taken_kept (fun u => kept_timerEnds u _ _) h
  | identityTimeout => exact taken_kept (fun u => kept_timerEnds u _ _) h
  | authTimeout => exact taken_kept (fun u => kept_timerEnds u _ _) h
  | idleTimeout => exact taken_kept (fun u => kept_timerEnds u _ _) h
  | refusedDisplayExpiry => exact taken_kept (fun u => (still_displayEnds u).kept) h
  | pollRound => exact taken_kept (fun u => (still_startRound u).kept) h
  | probeAnswer bytes => exact taken_kept (fun u => (still_hearProbe u bytes).kept) h
  | probeAnswerTimeout => exact taken_kept (fun u => (still_probeTimesOut u).kept) h
  | channelEvent channel state => exact taken_kept (fun u => kept_channelChanges u channel.val state) h
  | manualCallOperation => exact taken_kept kept_callOperated h
  | manualCallRelease => exact taken_kept (fun u => (still_callReleased u).kept) h
  | holdOrIsolateChange switch on =>
    exact taken_kept (fun u => (kept_judgeSwitches _).after (still_recordSwitch u switch on).kept) h
  | doorChange b => exact taken_kept (fun u => (still_recordDoor u b).kept) h
  | agentReadyChange b => exact taken_kept (fun u => (still_recordAgent u b).kept) h
  | countdownExpiry => exact taken_kept kept_countdownExpires h
  | pulseEnd => exact taken_kept kept_pulseEnds h
  | soakExpiry => exact taken_kept kept_soakEnds h
  | addressStrapChange a => exact taken_kept (fun u => (still_withPins u { u.pins with straps := a.val }).kept) h

theorem step_kept (h : step s = .next t) : s.CustodyKept t := by
  unfold step at h
  split at h
  · refine next_kept ?_ h
    exact .ite (fun _ => .refl s) fun _ => (still_withNow s _).kept
  · rename_i rest _
    exact (exec_kept _ h).after (still_withPending s rest).kept

end

/-- Settles O60: every operation of the model keeps custody (`State.CustodyKept`), so every command does. -/
theorem stepKeepsCustody : Obligations.StepKeepsCustody := by
  refine ⟨fun s t hs h => ?_, fun s t hs hocc h => ?_⟩
  · obtain ⟨hcore, hstopped⟩ := (custodyHeld_iff s).1 hs
    exact (custodyHeld_iff t).2 ⟨(step_kept h).core hcore, (step_kept h).stopped hcore hstopped⟩
  · exact (step_kept h).room ((custodyHeld_iff s).1 hs).1 hocc

end Sys2Proof.Machine

namespace Sys2Proof.Machine

/-! ### Manifest entries by their number -/

/-- A numbered entry of a table whose first number is 1. -/
theorem setEntry_one {α : Type} {n : Nat} (h : 1 ≤ n) (l : List α) (x : α) : setEntry 1 l n x = l.set (n - 1) x := if_neg (Nat.not_lt.2 h)

/-- The manifest that stands at a place of the table, by its number. -/
theorem manifest?_of_place {s : State} {n : Nat} {m : Manifest} (hn : 1 ≤ n) (hm : s.custody.manifests[n - 1]? = some (some m)) :
    s.manifest? n = some m := by
  rw [State.manifest?, entryAt_one _ _ hn, hm]
  rfl

theorem expired_iff (m : Manifest) : m.expired = true ↔ m.state = .waiting ∧ m.lifetime = 0 := by simp [Manifest.expired]

/-- The numbers of the expired manifests begin with that of the lowest expired place (R31). -/
theorem expiredFrom_lowest {base k : Nat} {l : List (Option Manifest)} {m : Manifest} (hm : l[k]? = some (some m)) (hexpired : m.expired = true)
    (hlower : ∀ j x, j < k → l[j]? = some (some x) → ¬x.expired = true) : ∃ rest, expiredFrom base l = (base + k) :: rest := by
  induction l generalizing base k with
  | nil => cases hm
  | cons y l ih =>
    cases k with
    | zero =>
      cases hm
      exact ⟨_, if_pos hexpired⟩
    | succ k =>
      obtain ⟨rest, hrest⟩ := ih (base := base + 1) hm fun j x hj => hlower (j + 1) x (Nat.succ_lt_succ hj)
      rw [Nat.add_right_comm] at hrest
      refine ⟨rest, Eq.trans ?_ hrest⟩
      cases y with
      | none => rfl
      | some x => exact if_neg (hlower 0 x (Nat.succ_pos k) rfl)

theorem freeFrom_full {base : Nat} {l : List (Option Manifest)} (h : ∀ m ∈ l, m.isSome) : freeFrom base l = none := by
  induction l generalizing base with
  | nil => rfl
  | cons y l ih =>
    cases y with
    | none => exact absurd (h none List.mem_cons_self) (by decide)
    | some x => exact ih fun m hm => h m (List.mem_cons_of_mem _ hm)

theorem freeFrom_lowest {base k : Nat} {l : List (Option Manifest)} (hfree : l[k]? = some none)
    (hlower : ∀ j, j < k → ∃ m, l[j]? = some (some m)) : freeFrom base l = some (base + k) := by
  induction l generalizing base k with
  | nil => cases hfree
  | cons y l ih =>
    cases k with
    | zero =>
      cases hfree
      rfl
    | succ k =>
      obtain ⟨m, hm⟩ := hlower 0 (Nat.succ_pos k)
      cases hm
      exact (ih hfree fun j hj => hlower (j + 1) (Nat.succ_lt_succ hj)).trans (congrArg some (Nat.add_right_comm _ _ _))

/-! ### The end of a manifest -/

theorem releaseMember_written (n minute : Nat) (r : Record) :
    (match r.st with
      | .reserved p k => if k = n then { r with st := .shelved (some p), stateMinute := minute } else r
      | _ => r) = releaseMember n minute r := by
  rcases r with ⟨_, st, _, _, _⟩
  cases st <;> rfl

/-- The end of a manifest by the number of its entry, `f` being the release of its members however written (R31, R33). -/
theorem endManifest_eq {n : Nat} (hn : 1 ≤ n) (s : State) (m : Manifest) (cause : ManifestEnd) {f : Record → Record}
    (hf : ∀ r, f r = releaseMember n s.minute r) : s.endManifest n m cause = ({ s with custody := { s.custody with
      manifests := s.custody.manifests.set (n - 1) none, register := s.custody.register.map f } } : State).emit
        (.manifestEnded n cause m.members.length) := by
  rw [funext hf, State.endManifest, State.freeManifest, State.setManifest, setEntry_one hn]
  rfl

/-- Settles O9: the number that the expiry takes is that of the lowest expired place. -/
theorem expiredManifestFreesItsMembers : Obligations.ExpiredManifestFreesItsMembers := by
  intro s n m hn hm hwaiting hspent hlower
  obtain ⟨rest, hfirst⟩ := expiredFrom_lowest (base := 1) hm ((expired_iff m).2 ⟨hwaiting, hspent⟩)
    fun j x hj hx => mt (expired_iff x).1 (hlower j x hj hx)
  rw [Nat.add_sub_cancel' hn] at hfirst
  have hstep : s.expireManifestStep = s.endManifest n m .expired := by
    simp only [State.expireManifestStep, State.expiredManifests, hfirst, manifest?_of_place hn hm]
  exact congrArg Host.Outcome.next (hstep.trans (endManifest_eq hn s m .expired (releaseMember_written n s.minute)))

/-! ### CANCEL MANIFEST -/

/-- An event and an answer queued in either order. -/
theorem emit_queueAnswer (s : State) (e : Event) (a : Answer) : (s.emit e).queueAnswer a = (s.queueAnswer a).emit e := by
  rw [emit_withNotices s, emit_withNotices (s.queueAnswer a), emit_notices_congr (s.queueAnswer a) s e rfl rfl rfl]
  rfl

/-- CANCEL MANIFEST of a number of the table, by its entry. -/
theorem cancelManifestReply_eq {r : Request} {n : Byte} (t : State) (hr : r.payload = [7, n]) : cancelManifestReply r t =
      if n.toNat < 1 ∨ 4 < n.toNat then t.refuse .malformed
      else
        match t.manifest? n.toNat with
        | none => t.refuse .noSuchManifest
        | some m => if m.state = .waiting then (t.endManifest n.toNat m .cancelled).doneReply else t.refuse .wrongState := by
  have hfields : byteAt (requestFields r.payload) 0 = n.toNat := by rw [hr]; rfl
  simp only [cancelManifestReply, hfields]
  congr 1
  cases t.manifest? n.toNat with
  | none => rfl
  | some m => rcases m with ⟨state, _, _⟩; cases state <;> rfl

/-- Settles O17: the table of R33 by the entry that the number names. -/
theorem cancelManifestEndsOpenManifest : Obligations.CancelManifestEndsOpenManifest := by
  intro s r rest n h hp hr
  have hk : requestKindOf r.payload = some .cancelManifest := by rw [hr]; rfl
  have hw : layoutWhole .cancelManifest (requestFields r.payload) = true := by rw [hr]; rfl
  have howner := cancelManifestReply_eq (s.popped rest) hr
  have hmanifest : (s.popped rest).manifest? n.toNat = s.manifest? n.toNat := rfl
  rw [hmanifest] at howner
  refine ⟨fun hbad => taken_unchanged h hp hk rfl hw (howner.trans (if_pos hbad)), fun hlow hhigh hnone => ?_,
    fun m hlow hhigh hm hstate => ?_, fun m hlow hhigh hm hstate => ?_⟩
  all_goals rw [if_neg (by omega)] at howner
  · rw [hnone] at howner
    exact taken_unchanged h hp hk rfl hw howner
  · rw [hm] at howner
    exact taken_unchanged h hp hk rfl hw (howner.trans (if_neg (by rw [hstate]; decide)))
  · rw [hm] at howner
    refine (taken_reply h .cancelManifest hp hk rfl hw _ (howner.trans (if_pos hstate))).trans (congrArg Host.Outcome.next ?_)
    have hend := endManifest_eq hlow (s.popped rest) m .cancelled (releaseMember_written n.toNat s.minute)
    exact (congrArg (State.queueAnswer · _) hend).trans (emit_queueAnswer _ _ _)

/-! ### CHECK-OUT -/

theorem chunks_flatten {size : Nat} {l : List (List Byte)} (h : ∀ x ∈ l, x.length = size) : chunks size l.length l.flatten = l := by
  induction l with
  | nil => rfl
  | cons x l ih =>
    obtain ⟨hx, hl⟩ := List.forall_mem_cons.1 h
    rw [List.length_cons, chunks, List.flatten_cons, List.take_left' hx, List.drop_left' hx, ih hl]

theorem length_flatten_of_length {size : Nat} {l : List (List Byte)} (h : ∀ x ∈ l, x.length = size) :
    l.flatten.length = size * l.length := by
  rw [List.length_flatten, List.map_congr_left h, List.map_const', List.sum_replicate, smul_eq_mul, Nat.mul_comm]

/-- The list that a CHECK-OUT carries behind its count (11.2). -/
theorem checkOutList_eq {n : Byte} {list : List Ident} (hn : n.toNat = list.length) (hl : ∀ id ∈ list, id.length = 10) :
    checkOutList (n :: list.flatten) = list := by
  have hcount : byteAt (n :: list.flatten) 0 = list.length := hn
  rw [checkOutList, hcount]
  exact chunks_flatten hl

theorem length_entryResults (s : State) (earlier list : List Ident) : (entryResults s earlier list).length = list.length := by
  induction list generalizing earlier with
  | nil => rfl
  | cons id rest ih => exact congrArg Nat.succ (ih _)

/-- An entry of the list is judged behind those that stand before it (R28). -/
theorem entryResults_getElem? {s : State} {earlier list : List Ident} {j : Nat} {id : Ident} (h : list[j]? = some id) :
    (entryResults s earlier list)[j]? = some (entryResult s ((list.take j).reverse ++ earlier) id) := by
  induction list generalizing earlier j with
  | nil => cases h
  | cons x rest ih =>
    cases j with
    | zero =>
      cases h
      rfl
    | succ j =>
      rw [entryResults, List.getElem?_cons_succ, ih h, List.take_succ_cons, List.reverse_cons, List.append_assoc]
      rfl

/-- The result of one entry, by the conditions of R28 in their order. -/
theorem entryResult_eq (s : State) {earlier before : List Ident} (id : Ident) (h : id ∈ earlier ↔ id ∈ before) :
    entryResult s earlier id =
      if identOk id = false then .malformed
      else if id ∈ before then .repeated
      else match s.find id with
        | none => .noRecord
        | some x => match x.st with
          | .shelved (some _) => .reserved
          | _ => .notShelved := by
  simp only [entryResult, List.contains_iff_mem, h, Bool.not_eq_true'] <;> rfl

theorem reserveRecord_written (members : List Ident) (n minute : Nat) (x : Record) :
    (match x.st with
      | .shelved (some p) => if x.id ∈ members then { x with st := .reserved p n, stateMinute := minute } else x
      | _ => x) = reserveRecord members n minute x := by
  simp only [reserveRecord, List.contains_iff_mem] <;> rfl

/-- The manifest created in a numbered entry, `f` being the reservation of its members however written (R29). -/
theorem createManifest_eq {n : Nat} (hn : 1 ≤ n) (s : State) (members : List Ident) {f : Record → Record}
    (hf : ∀ x, f x = reserveRecord members n s.minute x) : s.createManifest n members = { s with custody := { s.custody with
      manifests := s.custody.manifests.set (n - 1) (some ⟨.waiting, members, s.cfg.manifestLifetime⟩),
      register := s.custody.register.map f } } := by
  rw [funext hf, State.createManifest, State.setManifest, setEntry_one hn]
  rfl

theorem checkOutContent_eq {n : Byte} {results : List EntryResult} (hn : n.toNat = results.length) (number lifetime : Nat) :
    checkOutContent number lifetime results =
      BitVec.ofNat 8 number :: (toBytes 2 lifetime ++ n :: results.map fun e => BitVec.ofNat 8 (entryResultCode e)) := by
  rw [checkOutContent, ← hn, BitVec.ofNat_toNat, BitVec.setWidth_eq]
  rfl

/-- CHECK-OUT by the list that it carries. -/
theorem checkOutReply_eq {r : Request} {n : Byte} {list : List Ident} (t : State) (hn : n.toNat = list.length)
    (hl : ∀ id ∈ list, id.length = 10) (hr : r.payload = 6 :: n :: list.flatten) : checkOutReply r t =
      if list.length = 0 ∨ 32 < list.length then t.refuse .malformed
      else if 2 ≤ seqCode t.fire.seq then t.refuse .zoneAlarm
      else if t.climate.latch = true then t.refuse .excursion
      else
        match freeFrom 1 t.custody.manifests with
        | none => t.refuse .noManifestSlot
        | some number =>
          if reservedMembers list (entryResults t [] list) = [] then
            ⟨t, .nothingReserved, checkOutContent 0 0 (entryResults t [] list)⟩
          else ⟨t.createManifest number (reservedMembers list (entryResults t [] list)), .done,
            checkOutContent number t.cfg.manifestLifetime (entryResults t [] list)⟩ := by
  have hlist : checkOutList (requestFields r.payload) = list := by
    rw [hr]
    exact checkOutList_eq hn hl
  simp only [checkOutReply, hlist, listCapacity, inAlarm_iff, List.isEmpty_iff] <;> rfl

/-- Settles O16: the checks of R27 in their order, then the list judged against the register and the lowest free entry of the table. -/
theorem checkOutReservesShelvedPlacedRecords : Obligations.CheckOutReservesShelvedPlacedRecords := by
  intro s r rest list n h hp hn hl hr
  have hk : requestKindOf r.payload = some .checkOut := by rw [hr]; rfl
  have hw : layoutWhole .checkOut (requestFields r.payload) = true := by
    have hcount : byteAt (n :: list.flatten) 0 = list.length := hn
    simp [hr, requestFields, layoutWhole, hcount, length_flatten_of_length hl, Nat.add_comm]
  have howner := checkOutReply_eq (s.popped rest) hn hl hr
  refine ⟨fun hbad => taken_unchanged h hp hk rfl hw (howner.trans (if_pos hbad)), fun hsome hshort => ?_⟩
  rw [if_neg (by omega)] at howner
  refine ⟨fun halarm => taken_unchanged h hp hk rfl hw (howner.trans (if_pos halarm)), fun hcalm hlatch => ?_,
    fun hcalm hlatch hfull => ?_, fun k hcalm hlatch hfree hlower => ?_⟩
  all_goals
    have hquiet : ¬2 ≤ seqCode (s.popped rest).fire.seq := Nat.not_le.2 hcalm
    rw [if_neg hquiet] at howner
  · exact taken_unchanged h hp hk rfl hw (howner.trans (if_pos hlatch))
  all_goals
    have hclear : ¬(s.popped rest).climate.latch = true := Bool.eq_false_iff.1 hlatch
    rw [if_neg hclear] at howner
  · have hnone : freeFrom 1 (s.popped rest).custody.manifests = none := freeFrom_full hfull
    rw [hnone] at howner
    exact taken_unchanged h hp hk rfl hw howner
  · have hnumber : freeFrom 1 (s.popped rest).custody.manifests = some (k + 1) :=
      (freeFrom_lowest hfree hlower).trans (congrArg some (Nat.add_comm 1 k))
    rw [hnumber] at howner
    have hlength := length_entryResults (s.popped rest) [] list
    have hcontent := checkOutContent_eq (hn.trans hlength.symm)
    refine ⟨entryResults (s.popped rest) [] list, reservedMembers list (entryResults (s.popped rest) [] list),
      (entryResults (s.popped rest) [] list).map fun e => BitVec.ofNat 8 (entryResultCode e), hlength, fun j id hid => ?_, rfl, ?_,
      fun hnothing => ?_, fun hreserved => ?_⟩
    · have hbefore : id ∈ (list.take j).reverse ++ [] ↔ id ∈ list.take j := by rw [List.append_nil, List.mem_reverse]
      exact (entryResults_getElem? hid).trans (congrArg some (entryResult_eq (s.popped rest) id hbefore))
    · exact List.map_congr_left fun e _ => by cases e <;> rfl
    · have hdone := howner.trans (if_pos hnothing)
      rw [hcontent] at hdone
      exact taken_unchanged h hp hk rfl hw hdone
    · have hdone := howner.trans (if_neg hreserved)
      rw [hcontent, createManifest_eq (Nat.le_add_left 1 k) (s.popped rest) _ (reserveRecord_written _ (k + 1) s.minute)] at hdone
      exact taken_reply h .checkOut hp hk rfl hw _ hdone

/-! ### AUTHORIZE and DENY -/

/-- An OPEN manifest is bound (R35). -/
theorem bindManifest_waiting {s : State} {n : Nat} {m : Manifest} (hm : s.manifest? n = some m) (hstate : m.state = .waiting) :
    s.bindManifest n = some (s.setManifest n (some { m with state := .inSession })) := by
  simp only [State.bindManifest, hm, hstate]

/-- A free entry, or one whose manifest is IN SESSION, refuses the binding (R35). -/
theorem bindManifest_refused {s : State} {n : Nat} (h : ∀ m, s.manifest? n = some m → m.state = .inSession) :
    s.bindManifest n = none := by
  cases hm : s.manifest? n with
  | none => simp only [State.bindManifest, hm]
  | some m => simp only [State.bindManifest, hm, h m hm]

/-- AUTHORIZE by the checks of R55 in their order. -/
theorem authorizeReply_eq {r : Request} {n mark : Byte} (t : State) (hr : r.payload = [8, n, mark]) : authorizeReply r t =
      if ¬(1 ≤ mark.toNat ∧ mark.toNat ≤ 4 ∨ mark.toNat = 255) then t.refuse .malformed
      else if t.dock.session = .idle ∨ n.toNat ≠ t.dock.number then t.refuse .noSession
      else if t.dock.session ≠ .awaitingAuth then t.refuse .wrongState
      else if t.dock.intent = some .returning then
        if mark.toNat = 255 then (t.enterLoading none).doneReply else t.refuse .wrongState
      else if mark.toNat = 255 then t.refuse .wrongState
      else ((t.bindManifest mark.toNat).map fun bound => (bound.enterLoading (some mark.toNat)).doneReply).getD
        (t.refuse .noSuchManifest) := by
  have hnumber : byteAt (requestFields r.payload) 0 = n.toNat := by rw [hr]; rfl
  have hmark : byteAt (requestFields r.payload) 1 = mark.toNat := by rw [hr]; rfl
  simp only [authorizeReply, hnumber, hmark, returnMark]
  cases t.bindManifest mark.toNat <;> rcases t.dock.intent with _ | _ | _ <;> rfl

theorem denyReply_eq {r : Request} {n : Byte} (t : State) (hr : r.payload = [9, n]) : denyReply r t =
      if t.dock.session = .idle ∨ n.toNat ≠ t.dock.number then t.refuse .noSession
      else if t.dock.session ≠ .awaitingAuth then t.refuse .wrongState
      else (t.endUncommitted .denied).doneReply := by
  have hnumber : byteAt (requestFields r.payload) 0 = n.toNat := by rw [hr]; rfl
  rw [denyReply, hnumber]

/-- The end of a session and an answer queued in either order. -/
theorem endedUncommitted_queueAnswer {s t : State} {o : SessionOutcome} {exchange : Option Outstanding} (a : Answer)
    (h : s.endedUncommitted o exchange t) : (s.queueAnswer a).endedUncommitted o exchange (t.queueAnswer a) := by
  obtain ⟨hframe, hcustody, hmanifests, hdock, hnotices⟩ := h
  exact ⟨congrArg (State.queueAnswer · a) hframe, hcustody, hmanifests, hdock, hnotices.trans (emit_notices_congr _ _ _ rfl rfl rfl)⟩

/-- Settles O18: the checks on the session are shared; past them AUTHORIZE goes by the intent and the entry named, and DENY ends the session. -/
theorem authorizeAndDenyTheWaitingSession : Obligations.AuthorizeAndDenyTheWaitingSession := by
  intro s r rest n mark h
  have hown (hbusy : s.dock.session ≠ .idle) (hnumber : n.toNat = s.dock.number) :
      ¬((s.popped rest).dock.session = .idle ∨ n.toNat ≠ (s.popped rest).dock.number) := not_or.2 ⟨hbusy, not_not.2 hnumber⟩
  have hbusy (hstate : s.dock.session = .awaitingAuth) : s.dock.session ≠ .idle := by rw [hstate]; decide
  have hwaits (hstate : s.dock.session = .awaitingAuth) : ¬(s.popped rest).dock.session ≠ .awaitingAuth := not_not.2 hstate
  have hdeparts (hintent : s.dock.intent = some .departing) : ¬(s.popped rest).dock.intent = some .returning := fun hback =>
    nomatch hintent.symm.trans hback
  refine ⟨fun hp hr => ?_, fun hp hr => ?_⟩
  · have hk : requestKindOf r.payload = some .authorize := by rw [hr]; rfl
    have hw : layoutWhole .authorize (requestFields r.payload) = true := by rw [hr]; rfl
    have howner := authorizeReply_eq (s.popped rest) hr
    refine ⟨fun hbad => taken_unchanged h hp hk rfl hw (howner.trans (if_pos hbad)), fun hmark => ?_⟩
    rw [if_neg (not_not.2 hmark)] at howner
    refine ⟨fun hother => taken_unchanged h hp hk rfl hw (howner.trans (if_pos hother)), fun hbegun hstate hnumber => ?_,
      fun hstate hnumber => ?_⟩
    · exact taken_unchanged h hp hk rfl hw ((howner.trans (if_neg (hown hbegun hnumber))).trans (if_pos hstate))
    · rw [if_neg (hown (hbusy hstate) hnumber), if_neg (hwaits hstate)] at howner
      refine ⟨fun hintent hreturn => ?_, fun hmixed => ?_, fun hintent hfour => ?_⟩
      · exact taken_reply h .authorize hp hk rfl hw _ ((howner.trans (if_pos hintent)).trans (if_pos hreturn))
      · refine taken_unchanged h hp hk rfl hw (howner.trans ?_)
        obtain ⟨hintent, hnamed⟩ | ⟨hintent, hreturn⟩ := hmixed
        · exact (if_pos hintent).trans (if_neg hnamed)
        · exact (if_neg (hdeparts hintent)).trans (if_pos hreturn)
      · have hnamed : ¬mark.toNat = 255 := by omega
        have hlow : 1 ≤ mark.toNat := by omega
        rw [if_neg (hdeparts hintent), if_neg hnamed] at howner
        refine ⟨fun m hm hopen => ?_, fun hbarred => ?_⟩
        · have hbound := bindManifest_waiting (s := s.popped rest) hm hopen
          rw [hbound, State.setManifest, setEntry_one hlow] at howner
          exact taken_reply h .authorize hp hk rfl hw _ howner
        · have hrefused := bindManifest_refused (s := s.popped rest) hbarred
          rw [hrefused] at howner
          exact taken_unchanged h hp hk rfl hw howner
  · have hk : requestKindOf r.payload = some .deny := by rw [hr]; rfl
    have hw : layoutWhole .deny (requestFields r.payload) = true := by rw [hr]; rfl
    have howner := denyReply_eq (s.popped rest) hr
    refine ⟨fun hother => taken_unchanged h hp hk rfl hw (howner.trans (if_pos hother)), fun hbegun hstate hnumber => ?_,
      fun hstate hnumber => ?_⟩
    · exact taken_unchanged h hp hk rfl hw ((howner.trans (if_neg (hown hbegun hnumber))).trans (if_pos hstate))
    · rw [if_neg (hown (hbusy hstate) hnumber), if_neg (hwaits hstate)] at howner
      exact ⟨_, taken_reply h .deny hp hk rfl hw _ howner, fun hheld =>
        endedUncommitted_queueAnswer _ (endUncommitted_spec (s.popped rest) .denied nofun hheld)⟩

end Sys2Proof.Machine

namespace Sys2Proof.Machine

/-! ### The dock's frames and exchanges -/

theorem exec_caseAnswer {s : State} {c : Instr} {f : CaseFrame} (h : s.settled = true) (hc : caseAnswerOf c = some f) :
    exec c s = .next (s.hearCase (some f)) := by
  have hrow : exec c s = taken s fun t => t.hearCase (some f) := by cases c <;> cases hc <;> rfl
  rw [hrow, taken_of_settled h]

theorem sendNext_busy {s : State} {o : Outstanding} (ho : s.dock.outstanding = some o) : s.sendNext = s := by
  simp only [State.sendNext, ho]

theorem sendNext_free {s : State} {f : DockFrame} (ho : s.dock.outstanding = none) (hf : s.stateFrame = some f) :
    s.sendNext = s.sendFrame f := by
  simp only [State.sendNext, ho, hf]

theorem sendNext_idle {s : State} (h : s.dock.session = .idle) : s.sendNext = s := by
  cases ho : s.dock.outstanding <;> simp only [State.sendNext, State.stateFrame, h, ho]

/-- A state whose frame has no interval: it is sent as soon as no exchange is outstanding (R47, log 28). -/
def SessionState.sendsAtOnce : SessionState → Bool
  | .sealing => true
  | .committing => true
  | _ => false

theorem sendAtOnce_eq (s : State) : s.sendAtOnce = if s.dock.session.sendsAtOnce then s.sendNext else s := by
  unfold State.sendAtOnce
  cases s.dock.session <;> rfl

/-- A state with an interval leaves its frame to DOCK_FRAME_SEND. -/
theorem sendAtOnce_interval {s : State} (h : s.dock.session.sendsAtOnce = false) : s.sendAtOnce = s := by
  rw [sendAtOnce_eq, h]
  rfl

/-- SEALING and COMMITTING send their frame at once where no exchange is outstanding. -/
theorem sendAtOnce_free {s : State} {f : DockFrame} (h : s.dock.session.sendsAtOnce = true) (ho : s.dock.outstanding = none)
    (hf : s.stateFrame = some f) : s.sendAtOnce = s.sendFrame f := by
  rw [sendAtOnce_eq, h]
  exact sendNext_free ho hf

/-- An answer that comes with no exchange outstanding is discarded. -/
theorem hearCase_unasked {s : State} (ho : s.dock.outstanding = none) (answer : Option CaseFrame) : s.hearCase answer = s := by
  simp only [State.hearCase, ho]

/-- After the session's end an answer within its time only ends the exchange. -/
theorem hearCase_idle {s : State} {o : Outstanding} (ho : s.dock.outstanding = some o) (hs : s.dock.session = .idle)
    (hle : s.now ≤ o.sentAt + 500) (answer : Option CaseFrame) : s.hearCase answer = s.endExchange := by
  have htime : ¬o.sentAt + exchangeLimit < s.now := Nat.not_lt.2 hle
  simp only [State.hearCase, ho, if_neg htime, if_pos hs]

/-- An answer within its time that is not well formed or not admitted is a frame fault. -/
theorem hearCase_refused {s : State} {o : Outstanding} {answer : Option CaseFrame} (ho : s.dock.outstanding = some o)
    (hp : s.dock.pendingAbort = none) (hs : s.dock.session ≠ .idle) (hle : s.now ≤ o.sentAt + 500)
    (hbad : ∀ f, answer = some f → (caseFrameOk f && admits o.frame f) = false) :
    s.hearCase answer = (s.withDock { s.dock with outstanding := none }).frameFault.sendAtOnce := by
  have htime : ¬o.sentAt + exchangeLimit < s.now := Nat.not_lt.2 hle
  simp only [State.hearCase, ho, if_neg htime, if_neg hs, State.endExchange, hp, State.judgeAnswer]
  cases answer with
  | none => rfl
  | some f => simp only [hbad f rfl, Bool.false_eq_true, if_false]

/-- The end of an exchange, with the ABORT that was held for it (R50). -/
theorem endExchange_eq (s : State) : s.endExchange = { s with dock := { s.dock with
      outstanding := none,
      pendingAbort := none,
      lastFrame := match s.dock.pendingAbort with | some a => some (.abort a) | none => s.dock.lastFrame,
      lastSentAt := if s.dock.pendingAbort.isSome then some s.now else s.dock.lastSentAt } } := by
  unfold State.endExchange
  cases hp : s.dock.pendingAbort with
  | none =>
    simp only [Option.isSome_none, Bool.false_eq_true, if_false]
    rw [← hp]
    rfl
  | some a => rfl

/-! ### Frame faults (R49) -/

/-- A fault is not counted in WAKING. -/
theorem frameFault_waking {s : State} (h : s.dock.session = .waking) : s.frameFault = s := by
  simp only [State.frameFault, h]

/-- A fault that is not the third consecutive one is counted. -/
theorem frameFault_counted {s : State} (h1 : s.dock.session ≠ .idle) (h2 : s.dock.session ≠ .waking) (hf : s.dock.faults < 2) :
    s.frameFault = s.withDock { s.dock with faults := s.dock.faults + 1 } := by
  have hlimit : ¬faultLimit ≤ s.dock.faults + 1 := Nat.not_le.2 (Nat.succ_lt_succ hf)
  unfold State.frameFault
  split
  · exact absurd ‹_› h1
  · exact absurd ‹_› h2
  all_goals exact if_neg hlimit

/-- The third consecutive fault ends a session before its commit point with LINK FAULT. -/
theorem frameFault_third {s : State} (h1 : s.dock.session.beforeCommit = true) (h2 : s.dock.session ≠ .waking) (hf : 2 ≤ s.dock.faults) :
    s.frameFault = s.endUncommitted .linkFault := by
  have hlimit : faultLimit ≤ s.dock.faults + 1 := Nat.succ_le_succ hf
  unfold State.frameFault
  split
  · simp [SessionState.beforeCommit, *] at h1
  · exact absurd ‹_› h2
  · simp [SessionState.beforeCommit, *] at h1
  all_goals exact if_pos hlimit

/-- The third consecutive fault in COMMITTING ends the session with HANDOVER UNCONFIRMED. -/
theorem frameFault_third_committing {s : State} (h : s.dock.session = .committing) (hf : 2 ≤ s.dock.faults) :
    s.frameFault = s.endCommitted .handoverUnconfirmed := by
  have hlimit : faultLimit ≤ s.dock.faults + 1 := Nat.succ_le_succ hf
  simp only [State.frameFault, h, if_pos hlimit]

/-! ### The ends of a session -/

/-- A dock unit that the end of a session before its commit point finds as it finds another. -/
structure DockUnit.SameSession (d e : DockUnit) : Prop where
  number : e.number = d.number
  intent : e.intent = d.intent
  identity : e.identity = d.identity
  manifest : e.manifest = d.manifest
  scans : e.scans = d.scans
  lastFrame : e.lastFrame = d.lastFrame
  lastSentAt : e.lastSentAt = d.lastSentAt

/-- An end taken after the exchange ended or the fault count changed is an end of the session as it stood. -/
theorem endedUncommitted_of_withDock {s t : State} {d : DockUnit} {o : SessionOutcome} {exchange : Option Outstanding}
    (hd : s.dock.SameSession d) (h : (s.withDock d).endedUncommitted o exchange t) : s.endedUncommitted o exchange t := by
  obtain ⟨hnumber, hintent, hidentity, hmanifest, hscans, hframe, hsent⟩ := hd
  obtain ⟨hrest, hcustody, hmanifests, hdock, hnotices⟩ := h
  have hreport : (s.withDock d).report o d.scans.length = s.report o s.dock.scans.length := by
    simp only [State.report, State.withDock_dock, hnumber, hintent, hidentity, hmanifest, hscans]
  refine ⟨hrest, hcustody, ?_, ?_, hnotices.trans ?_⟩
  · rw [← hmanifest]
    exact hmanifests
  · rw [hdock]
    simp only [State.withDock_dock, State.withDock_now, hnumber, hframe, hsent]
  · rw [State.withDock_dock, hreport, hscans]
    exact emit_notices_congr _ _ _ rfl rfl rfl

theorem session_endUncommitted (s : State) (o : SessionOutcome) : (s.endUncommitted o).dock.session = .idle :=
  (reverted_endUncommitted s o).session

/-- Whatever its outcome, the end of a session before its commit point changes the custody unit, the dock and the notices alone. -/
theorem endUncommitted_frame (s : State) (o : SessionOutcome) : s.endUncommitted o = { s with
    custody := (s.endUncommitted o).custody, dock := (s.endUncommitted o).dock, notices := (s.endUncommitted o).notices } := by
  have close : ∀ t : State, t.pins = s.pins → t.request = s.request → t.conditioning = s.conditioning → t.climate = s.climate →
      t.fire = s.fire → t.transfer = s.transfer → t.line = s.line → t.now = s.now → t.free = s.free → t.pending = s.pending →
      t = { s with custody := t.custody, dock := t.dock, notices := t.notices } := by
    rintro ⟨⟩ h1 h2 h3 h4 h5 h6 h7 h8 h9 h10
    dsimp only at *
    subst_vars
    rfl
  apply close <;> simp

/-- The custody unit of a session reverted. -/
theorem revertSession_custody (s : State) : s.revertSession.custody = { s.custody with
    manifests := s.reopenManifest.custody.manifests, register := s.custody.register.map (revertRecord s.minute) } := by
  change { s.reopenManifest.custody with register := s.reopenManifest.custody.register.map (revertRecord s.minute) } = _
  rw [reopenManifest_custody]

theorem endUncommitted_custody (s : State) (o : SessionOutcome) : (s.endUncommitted o).custody = s.revertSession.custody := by
  unfold State.endUncommitted
  dsimp only
  split <;> simp

/-- The one event of the end of a session (R73). -/
theorem endUncommitted_notices (s : State) (o : SessionOutcome) : (s.endUncommitted o).notices =
    (s.emit (.sessionEnded { s.report o s.dock.scans.length with reverted := some s.dock.scans.length })).notices := by
  have hnotices : (s.endUncommitted o).notices = (s.revertSession.emit (.sessionEnded
      { s.report o s.dock.scans.length with reverted := some s.dock.scans.length })).notices := by
    unfold State.endUncommitted
    dsimp only
    split <;> simp
  rw [hnotices]
  exact emit_notices_congr _ _ _ (by simp [State.revertSession]) (by simp [State.revertSession]) (by rw [revertSession_custody])

/-- The removal of the case reverts the session as its other ends do, but ends the exchange and sends no ABORT (R43, R50). -/
theorem endUncommitted_removed (s : State) : s.endedByRemoval (s.endUncommitted .caseRemoved) := by
  obtain ⟨t, ht⟩ : ∃ t, t = s.endUncommitted .caseRemoved := ⟨_, rfl⟩
  have hframe := endUncommitted_frame s .caseRemoved
  have hcustody : t.custody = s.revertSession.custody := ht ▸ endUncommitted_custody s .caseRemoved
  have hdock : t.dock = { idleDock s.dock.number with
      indicator := .refused, displayTimer := some s.now, lastFrame := s.dock.lastFrame, lastSentAt := s.dock.lastSentAt } := by
    rw [ht]
    simp [State.endUncommitted, State.revertSession, DockUnit.cleared, idleDock]
  rw [← ht] at hframe ⊢
  refine ⟨t.withDock { t.dock with lastFrame := some (.abort .caseRemoved), lastSentAt := some s.now }, ⟨?_, ?_, fun n => ?_, ?_, ?_⟩, ?_⟩
  · rw [hframe]
    rfl
  · rw [State.withDock_custody, hcustody, revertSession_custody, revertRecord_eq]
  · rw [← reopenManifest_manifest, State.manifest?, State.manifest?, State.withDock_custody, hcustody, revertSession_custody]
  · rw [State.withDock_dock, hdock]
    rfl
  · rw [State.withDock_notices, ht]
    exact endUncommitted_notices s .caseRemoved
  · have hlast : t.dock = { t.dock with lastFrame := s.dock.lastFrame, lastSentAt := s.dock.lastSentAt } := by rw [hdock]
    exact congrArg t.withDock hlast

/-- A session ends past its commit point: its event, the context IDLE, and by the outcome the indicator (R46, R70, R73). -/
theorem endCommitted_eq (s : State) (o : SessionOutcome) : s.endCommitted o = (s.withDock { idleDock s.dock.number with
      indicator := if o = .committed then .off else .refused,
      displayTimer := if o = .committed then none else some s.now,
      lastFrame := s.dock.lastFrame, lastSentAt := s.dock.lastSentAt }).withNotices
    (s.emit (.sessionEnded (s.commitReport o))).notices := by
  unfold State.endCommitted
  rw [emit_withNotices]
  by_cases ho : o = .committed
  · rw [if_pos ho, if_pos ho, if_pos ho]
    rfl
  · rw [if_neg ho, if_neg ho, if_neg ho]
    rfl

end Sys2Proof.Machine

namespace Sys2Proof.Machine

/-! ### Arrival, removal and keys -/

/-- What bars an arrival (R44). -/
theorem arrivalBarred_iff (s : State) :
    s.arrivalBarred = true ↔ s.configured = false ∨ 2 ≤ seqCode s.fire.seq ∨ s.fire.neighbourAlert = true := by
  simp [State.arrivalBarred, Seq.inAlarm, or_assoc]

/-- An arrival that nothing bars starts a session (R44). -/
theorem caseArrives_admitted {s : State} (hidle : s.dock.session = .idle) (hconfigured : s.configured = true)
    (hquiet : seqCode s.fire.seq < 2) (hflag : s.fire.neighbourAlert = false) :
    s.caseArrives = (s.withPins { s.pins with casePresent := true }).startSession := by
  have hbarred : ¬s.arrivalBarred = true := by
    rw [arrivalBarred_iff, hconfigured, hflag]
    simpa using hquiet
  simp only [State.caseArrives, hidle, if_neg hbarred]

/-- Settles O43: by the session and what bars the arrival; the WAKE goes by whether an exchange is outstanding. -/
theorem caseArrivalStartsOrIsRefused : Obligations.CaseArrivalStartsOrIsRefused := by
  intro s h
  have hrow : exec .caseArrival s = .next s.caseArrives := taken_of_settled h _
  rw [hrow]
  refine ⟨fun hidle hbar => ?_, fun hidle hconfigured hquiet hflag hfree => ?_, fun hidle hconfigured hquiet hflag o ho => ?_,
    fun hbusy => ?_⟩
  · have hbarred := (arrivalBarred_iff s).2 hbar
    simp only [State.caseArrives, hidle, if_pos hbarred]
    rfl
  · rw [caseArrives_admitted hidle hconfigured hquiet hflag]
    exact congrArg _ (sendNext_free hfree rfl)
  · rw [caseArrives_admitted hidle hconfigured hquiet hflag]
    exact congrArg _ (sendNext_busy ho)
  · unfold State.caseArrives
    dsimp only
    split
    · exact absurd ‹_› hbusy
    · rfl

/-- A timer's row in the session state that the timer runs in. -/
theorem taken_timer {s : State} {q : SessionState} {o : SessionOutcome} (h : s.settled = true) (hs : s.dock.session = q) :
    taken s (fun t => if t.dock.session = q then t.endUncommitted o else t) = .next (s.endUncommitted o) := by
  rw [taken_of_settled h, if_pos hs]

/-- The row of an end before the commit point has its effect in its session state (R45, R51, R52, R57, R63, R64). -/
theorem exec_end {s : State} {c : Instr} {o : SessionOutcome} (h : s.settled = true)
    (hrow : (c = .cancelKey ∧ s.dock.session.beforeCommit = true ∧ o = .cancelled) ∨
      (c = .wakingTimeout ∧ s.dock.session = .waking ∧ o = .noCase) ∨
      (c = .identityTimeout ∧ s.dock.session = .identifying ∧ o = .noIdentity) ∨
      (c = .authTimeout ∧ s.dock.session = .awaitingAuth ∧ o = .authTimeout) ∨
      (c = .idleTimeout ∧ s.dock.session = .loading ∧ o = .idleTimeout) ∨
      (c = .closeKey ∧ s.dock.session = .loading ∧ s.dock.scans = [] ∧ o = .nothingLoaded)) :
    exec c s = .next (s.endUncommitted o) ∧ o ≠ .caseRemoved := by
  rcases hrow with ⟨rfl, hs, rfl⟩ | ⟨rfl, hs, rfl⟩ | ⟨rfl, hs, rfl⟩ | ⟨rfl, hs, rfl⟩ | ⟨rfl, hs, rfl⟩ | ⟨rfl, hs, hempty, rfl⟩
  · exact ⟨(taken_of_settled h State.cancelPressed).trans (congrArg _ (if_pos hs)), nofun⟩
  · exact ⟨taken_timer h hs, nofun⟩
  · exact ⟨taken_timer h hs, nofun⟩
  · exact ⟨taken_timer h hs, nofun⟩
  · exact ⟨taken_timer h hs, nofun⟩
  · have hclosed : s.closePressed = s.endUncommitted .nothingLoaded := by simp only [State.closePressed, hs, hempty, List.isEmpty_nil, if_true]
    exact ⟨(taken_of_settled h State.closePressed).trans (congrArg _ hclosed), nofun⟩

/-- Settles O44: every row but the removal ends the session by `endUncommitted_spec`, the removal by `endUncommitted_removed`. -/
theorem uncommittedEndsRevertTheSession : Obligations.UncommittedEndsRevertTheSession := by
  intro s h
  have hremoval : exec .caseRemoval s = .next s.caseLeaves := taken_of_settled h _
  have hcancel : exec .cancelKey s = .next s.cancelPressed := taken_of_settled h _
  have hclose : exec .closeKey s = .next s.closePressed := taken_of_settled h _
  refine ⟨fun c o hrow => ?_, fun hbefore => ⟨_, hremoval, ?_⟩, fun hidle => ?_, fun hlate => ?_, fun hother => ?_⟩
  · obtain ⟨hexec, hkept⟩ := exec_end h hrow
    exact ⟨_, hexec, endUncommitted_spec s o hkept⟩
  · unfold State.caseLeaves
    dsimp only
    split
    · simp [SessionState.beforeCommit, *] at hbefore
    · simp [SessionState.beforeCommit, *] at hbefore
    · exact endUncommitted_removed _
  · rw [hremoval]
    simp only [State.caseLeaves, hidle]
    rfl
  · have hnot : ¬s.dock.session.beforeCommit = true := by rcases hlate with hs | hs <;> rw [hs] <;> decide
    rw [hcancel, State.cancelPressed, if_neg hnot]
  · rw [hclose]
    unfold State.closePressed
    split
    · exact absurd ‹_› hother
    · rfl

/-! ### Frames -/

/-- The frame of each session state (R47). -/
theorem stateFrame_of_session {s : State} {f : DockFrame}
    (h : s.dock.session = .waking ∧ f = .wake ∨ s.dock.session = .identifying ∧ f = .poll .none ∨
      s.dock.session = .awaitingAuth ∧ f = .poll .none ∨ s.dock.session = .loading ∧ f = .poll s.dock.verdict ∨
      s.dock.session = .sealing ∧ f = .digest s.dock.scans.length (crc (s.dock.scans.flatMap fun e => e.id)) ∨
      s.dock.session = .committing ∧ f = .commit) : s.stateFrame = some f := by
  rcases h with ⟨hs, rfl⟩ | ⟨hs, rfl⟩ | ⟨hs, rfl⟩ | ⟨hs, rfl⟩ | ⟨hs, rfl⟩ | ⟨hs, rfl⟩ <;> simp only [State.stateFrame, hs, State.digest, scanBytes]

/-- CLOSE with a list seals the session (R64). -/
theorem closePressed_sealed {s : State} (hs : s.dock.session = .loading) (hlist : s.dock.scans ≠ []) :
    s.closePressed = (s.withDock { s.dock with session := .sealing, faults := 0, idleTimer := none }).sendNext := by
  have hnonempty : ¬s.dock.scans.isEmpty = true := fun hempty => hlist (List.isEmpty_iff.1 hempty)
  simp only [State.closePressed, hs, if_neg hnonempty]
  rfl

/-- Settles O45: the frame of the state where no exchange is outstanding, for the row and for CLOSE. -/
theorem dockSendsTheFrameOfItsState : Obligations.DockSendsTheFrameOfItsState := by
  intro s h
  have hsend : exec .dockFrameSend s = .next s.sendNext := taken_of_settled h _
  have hclose : exec .closeKey s = .next s.closePressed := taken_of_settled h _
  refine ⟨fun f hfree hf => ?_, fun hnot => ?_, fun hs hlist => ?_⟩
  · rw [hsend, sendNext_free hfree (stateFrame_of_session hf)]
    rfl
  · rw [hsend]
    obtain hbusy | hidle := hnot
    · obtain ⟨o, ho⟩ := Option.ne_none_iff_exists'.1 hbusy
      rw [sendNext_busy ho]
    · rw [sendNext_idle hidle]
  · rw [hclose, closePressed_sealed hs hlist]
    refine ⟨fun d hfree hd => congrArg _ ?_, fun hbusy => congrArg _ ?_⟩
    · rw [hd]
      exact sendNext_free hfree rfl
    · obtain ⟨o, ho⟩ := Option.ne_none_iff_exists'.1 hbusy
      exact sendNext_busy ho

/-! ### Frame faults and late answers -/

theorem exec_malformedCaseFrame {s : State} (h : s.settled = true) (bytes : List Byte) :
    exec (.malformedCaseFrame bytes) s = .next (s.hearCase (caseFrameOf bytes)) :=
  taken_of_settled h fun t => t.hearCase (caseFrameOf bytes)

/-- A time-out, or an answer within its time that is not well formed or not admitted: the exchange ends with a frame fault; after an answer a frame
without an interval follows at once, after a time-out it does not (log 34). -/
theorem exec_fault {s : State} {o : Outstanding} {c : Instr} (h : s.settled = true) (ho : s.dock.outstanding = some o)
    (hs : s.dock.session ≠ .idle) (hp : s.dock.pendingAbort = none)
    (hc : c = .dockAnswerTimeout ∨ s.now ≤ o.sentAt + 500 ∧
      ((∃ bytes, c = .malformedCaseFrame bytes ∧ ∀ f, caseFrameOf bytes = some f → (caseFrameOk f && admits o.frame f) = false) ∨
        ∃ f, caseAnswerOf c = some f ∧ (caseFrameOk f && admits o.frame f) = false)) :
    exec c s = .next (if c = .dockAnswerTimeout then (s.withDock { s.dock with outstanding := none }).frameFault
      else (s.withDock { s.dock with outstanding := none }).frameFault.sendAtOnce) := by
  obtain rfl | ⟨hle, ⟨bytes, rfl, hbad⟩ | ⟨f, hf, hbad⟩⟩ := hc
  · rw [if_pos rfl, ← answerTimesOut_session ho hp hs]
    exact taken_of_settled h _
  · rw [if_neg nofun, exec_malformedCaseFrame h, hearCase_refused ho hp hs hle hbad]
  · have hnot : c ≠ .dockAnswerTimeout := by
      rintro rfl
      cases hf
    rw [if_neg hnot, exec_caseAnswer h hf, hearCase_refused ho hp hs hle]
    rintro f' ⟨⟩
    exact hbad

/-- A time-out, or any answer within its time, after the session's end. -/
theorem exec_afterEnd {s : State} {o : Outstanding} {c : Instr} (h : s.settled = true) (ho : s.dock.outstanding = some o)
    (hs : s.dock.session = .idle)
    (hc : c = .dockAnswerTimeout ∨ s.now ≤ o.sentAt + 500 ∧ ((∃ bytes, c = .malformedCaseFrame bytes) ∨ ∃ f, caseAnswerOf c = some f)) :
    exec c s = .next s.endExchange := by
  obtain rfl | ⟨hle, ⟨bytes, rfl⟩ | ⟨f, hf⟩⟩ := hc
  · have htimeout : s.answerTimesOut = s.endExchange := by simp only [State.answerTimesOut, ho, hs, if_true]
    exact (taken_of_settled h _).trans (congrArg _ htimeout)
  · rw [exec_malformedCaseFrame h, hearCase_idle ho hs hle]
  · rw [exec_caseAnswer h hf, hearCase_idle ho hs hle]

/-- An answer past its time, or with no exchange outstanding. -/
theorem hearCase_discarded {s : State} (h : ∀ o, s.dock.outstanding = some o → o.sentAt + 500 < s.now) (answer : Option CaseFrame) :
    s.hearCase answer = s := by
  cases ho : s.dock.outstanding with
  | none => exact hearCase_unasked ho answer
  | some o => exact hearCase_late ho (h o ho) answer

/-- The answers that each dock frame admits (R48). -/
theorem admits_iff (d : DockFrame) (f : CaseFrame) : admits d f = true ↔ d = .wake ∧ f = .awake ∨
    (∃ v, d = .poll v) ∧ (f = .nothing ∨ (∃ id, f = .scan id) ∨ ∃ i b n k l, f = .identity i b n k l) ∨
    (∃ n g, d = .digest n g) ∧ (∃ n g, f = .echo n g) ∨ d = .commit ∧ ∃ n, f = .done n := by
  cases d <;> cases f <;> simp [admits]

/-- The checks of R52. -/
theorem caseFrameOk_identity (caseId : BitVec 32) (badge : BitVec 24) (count : Word16) (intent : Byte) (intervals : List RawInterval) :
    caseFrameOk (.identity caseId badge count intent intervals) = true ↔
      1 ≤ caseId.toNat ∧ badge.toNat ≤ 999999 ∧ (intent = 1 ∨ intent = 2) ∧ intervals.length ≤ 255 := by
  simp only [caseFrameOk, Bool.and_eq_true, Bool.or_eq_true, decide_eq_true_eq, beq_iff_eq, and_assoc]

/-- Settles O46: the row's effect is a frame fault, and what that does goes by the session state and the count. -/
theorem thirdFrameFaultEndsTheSession : Obligations.ThirdFrameFaultEndsTheSession := by
  refine ⟨fun s o c h ho hs hp hc => ?_, fun s o c h ho hs hc => ?_, fun s c h hlate hc => ?_, admits_iff, caseFrameOk_identity⟩
  · rw [exec_fault h ho hs hp hc]
    obtain ⟨u, hu⟩ : ∃ u, u = s.withDock { s.dock with outstanding := none } := ⟨_, rfl⟩
    have hsession : u.dock.session = s.dock.session := by rw [hu]; rfl
    have hfaults : u.dock.faults = s.dock.faults := by rw [hu]; rfl
    rw [← hu]
    refine ⟨fun hwaking => ?_, fun hinterval hfew => ?_, fun f hf hfew => ?_, fun hbefore hmany => ?_, fun hcommitting hmany => ?_⟩
    · have hw : u.dock.session = .waking := hsession.trans hwaking
      rw [frameFault_waking hw, sendAtOnce_interval (by rw [hw]; rfl), ite_self, hu]
      rfl
    · have hcounted : u.frameFault = u.withDock { u.dock with faults := u.dock.faults + 1 } :=
        frameFault_counted (by rw [hsession]; exact hs) (by rw [hsession]; rcases hinterval with h | h | h <;> rw [h] <;> decide)
          (by rw [hfaults]; exact hfew)
      have hquiet : u.frameFault.dock.session.sendsAtOnce = false := by
        rw [hcounted, State.withDock_dock, hsession]
        rcases hinterval with h | h | h <;> rw [h] <;> rfl
      rw [sendAtOnce_interval hquiet, ite_self, hcounted, hu]
      rfl
    · have hcounted : u.frameFault = u.withDock { u.dock with faults := u.dock.faults + 1 } :=
        frameFault_counted (by rw [hsession]; exact hs) (by rw [hsession]; rcases hf with ⟨h, _⟩ | ⟨h, _⟩ <;> rw [h] <;> decide)
          (by rw [hfaults]; exact hfew)
      have hsent : (u.withDock { u.dock with faults := u.dock.faults + 1 }).sendAtOnce =
          (u.withDock { u.dock with faults := u.dock.faults + 1 }).sendFrame f := by
        refine sendAtOnce_free ?_ (by rw [hu]; rfl) (stateFrame_of_session ?_)
        · rw [State.withDock_dock, hsession]
          rcases hf with ⟨h, _⟩ | ⟨h, _⟩ <;> rw [h] <;> rfl
        · rw [hu]
          exact .inr (.inr (.inr (.inr hf)))
      rw [hcounted, hsent, hu]
      rfl
    · have hthird : u.frameFault = u.endUncommitted .linkFault :=
        frameFault_third (by rw [hsession]; rcases hbefore with h | h | h | h <;> rw [h] <;> rfl)
          (by rw [hsession]; rcases hbefore with h | h | h | h <;> rw [h] <;> decide) (by rw [hfaults]; exact hmany)
      rw [hthird, sendAtOnce_interval (by rw [session_endUncommitted]; rfl), ite_self]
      refine ⟨_, rfl, endedUncommitted_of_withDock (d := { s.dock with outstanding := none }) ⟨rfl, rfl, rfl, rfl, rfl, rfl, rfl⟩ ?_⟩
      rw [hu]
      exact endUncommitted_spec (s.withDock { s.dock with outstanding := none }) .linkFault nofun hp
    · rw [frameFault_third_committing (by rw [hsession]; exact hcommitting) (by rw [hfaults]; exact hmany), endCommitted_eq,
        sendAtOnce_interval rfl, ite_self, hu]
      exact congrArg (fun n => Host.Outcome.next (State.withNotices _ n)) (emit_notices_congr _ _ _ rfl rfl rfl)
  · exact (exec_afterEnd h ho hs hc).trans (congrArg _ (endExchange_eq s))
  · obtain ⟨bytes, rfl⟩ | ⟨f, hf⟩ := hc
    · rw [exec_malformedCaseFrame h, hearCase_discarded hlate]
    · rw [exec_caseAnswer h hf, hearCase_discarded hlate]

end Sys2Proof.Machine

namespace Sys2Proof.Machine

/-! ### Accepted answers -/

/-- The state in which an accepted answer is acted on: its exchange over and the fault count cleared (R48, R49). -/
def State.accepting (s : State) : State := s.withDock { s.dock with outstanding := none, faults := 0 }

theorem accepting_session (s : State) : s.accepting.dock.session = s.dock.session := rfl

/-- An accepted answer's row: the exchange is over, the fault count cleared, and the answer acted on. -/
theorem exec_accepted {s : State} {o : Outstanding} {c : Instr} {f : CaseFrame} (h : s.settled = true)
    (ho : s.dock.outstanding = some o) (hp : s.dock.pendingAbort = none) (hle : s.now ≤ o.sentAt + 500)
    (hs : s.dock.session ≠ .idle) (hc : caseAnswerOf c = some f) (hok : caseFrameOk f = true) (ha : admits o.frame f = true) :
    exec c s = .next (s.accepting.actOn f).sendAtOnce := by
  rw [exec_caseAnswer h hc, hearCase_accepted ho hp f hle hok ha hs, State.accepting]

/-- A POLL admits NOTHING, SCAN and IDENTITY (R48). -/
theorem admits_poll {d : DockFrame} {v : Verdict} {f : CaseFrame} (hd : d = .poll v)
    (hf : f = .nothing ∨ (∃ id, f = .scan id) ∨ ∃ i b n k l, f = .identity i b n k l) : admits d f = true :=
  (admits_iff d f).2 (.inr (.inl ⟨⟨v, hd⟩, hf⟩))

theorem actOn_awake {s : State} (h : s.dock.session = .waking) :
    s.actOn .awake = s.withDock { s.dock with session := .identifying, faults := 0, stateTimer := some s.now } := by
  simp only [State.actOn, h]

theorem actOn_identity {s : State} (h : s.dock.session = .identifying) (caseId : BitVec 32) (badge : BitVec 24) (count : Word16)
    (intent : Byte) (intervals : List RawInterval) :
    s.actOn (.identity caseId badge count intent intervals) = s.takeIdentity caseId badge count intent intervals := by
  simp only [State.actOn, h]

theorem actOn_scan {s : State} (h : s.dock.session = .loading) (id : Ident) : s.actOn (.scan id) = s.judgeScan id := by
  simp only [State.actOn, h]

theorem actOn_nothing {s : State} (h : s.dock.session = .loading) : s.actOn .nothing = s.setVerdict .none := by
  simp only [State.actOn, h]

theorem actOn_echo {s : State} (h : s.dock.session = .sealing) (count : Byte) (digest : Word16) :
    s.actOn (.echo count digest) = s.judgeEcho count digest := by
  simp only [State.actOn, h]

theorem actOn_done {s : State} (h : s.dock.session = .committing) (count : Word16) : s.actOn (.done count) = s.judgeDone count := by
  simp only [State.actOn, h]

/-- The answers to a POLL that a session state has no use for (R52, R54, R59, R64). -/
theorem actOn_ignored {s : State} {f : CaseFrame}
    (h : s.dock.session = .identifying ∧ (f = .nothing ∨ ∃ id, f = .scan id) ∨
      (s.dock.session = .awaitingAuth ∨ s.dock.session = .sealing) ∧
        (f = .nothing ∨ (∃ id, f = .scan id) ∨ ∃ i b n k l, f = .identity i b n k l) ∨
      s.dock.session = .loading ∧ ∃ i b n k l, f = .identity i b n k l) : s.actOn f = s := by
  unfold State.actOn
  split
  all_goals simp_all

/-- An IDENTITY of a DEPART session: its summary is not kept (R53, R54). -/
theorem takeIdentity_departing (s : State) (caseId : BitVec 32) (badge : BitVec 24) (count : Word16) (intervals : List RawInterval) :
    s.takeIdentity caseId badge count 1 intervals = (s.withDock { s.dock with
        session := .awaitingAuth, faults := 0, intent := some .departing,
        identity := some ⟨caseId.toNat, badge.toNat, count.toNat, .departing, []⟩, stateTimer := none, authTimer := some s.now }).emit
      (.authorizationWanted s.dock.number caseId.toNat badge.toNat count.toNat .departing none none) := rfl

/-- An IDENTITY of a RETURN session, with its summary (R53, R54). -/
theorem takeIdentity_returning (s : State) (caseId : BitVec 32) (badge : BitVec 24) (count : Word16) (intervals : List RawInterval) :
    s.takeIdentity caseId badge count 2 intervals = (s.withDock { s.dock with
        session := .awaitingAuth, faults := 0, intent := some .returning,
        identity := some ⟨caseId.toNat, badge.toNat, count.toNat, .returning, keptSummary intervals⟩,
        stateTimer := none, authTimer := some s.now }).emit
      (.authorizationWanted s.dock.number caseId.toNat badge.toNat count.toNat .returning
        (some (keptSummary intervals).length) (some ((keptSummary intervals).map (·.minutes)).sum)) := rfl

/-- Settles O47: each row's effect is its answer's on the state with the exchange over; SEALING then sends its DIGEST. -/
theorem answersMoveTheSessionOn : Obligations.AnswersMoveTheSessionOn := by
  intro s o h ho hp hle
  have hbusy {q : SessionState} (hs : s.dock.session = q) (hq : q ≠ .idle) : s.dock.session ≠ .idle := hs ▸ hq
  refine ⟨fun hs hframe => ?_, fun v hs hframe => ?_, fun v caseId badge count intent intervals hs hframe hid hbadge hlength => ?_,
    fun c f v hframe hc hok => ⟨fun huse => ?_, fun d hs hd hf => ?_⟩, fun c f bytes hc hbytes => ?_⟩
  · rw [exec_accepted h ho hp hle (hbusy hs nofun) (c := .awake) rfl rfl (by rw [hframe]; rfl), actOn_awake (s := s.accepting) hs]
    rfl
  · rw [exec_accepted h ho hp hle (hbusy hs nofun) (c := .nothing) rfl rfl (admits_poll hframe (.inl rfl)),
      actOn_nothing (s := s.accepting) hs, sendAtOnce_interval (s := s.accepting.setVerdict .none) (congrArg _ hs)]
    rfl
  · have hrow (hintent : intent = 1 ∨ intent = 2) : exec (.identity caseId badge count intent intervals) s =
        .next (s.accepting.takeIdentity caseId badge count intent intervals) := by
      have hwaits : (s.accepting.takeIdentity caseId badge count intent intervals).dock.session = .awaitingAuth := by
        simp only [State.takeIdentity, State.emit_dock, State.withDock_dock]
      rw [exec_accepted h ho hp hle (hbusy hs nofun) (c := .identity caseId badge count intent intervals) rfl
        ((caseFrameOk_identity _ _ _ _ _).2 ⟨hid, hbadge, hintent, hlength⟩)
        (admits_poll hframe (.inr (.inr ⟨_, _, _, _, _, rfl⟩))), actOn_identity (s := s.accepting) hs,
        sendAtOnce_interval (by rw [hwaits]; rfl)]
    refine ⟨?_, ?_⟩
    · rintro rfl
      rw [hrow (.inl rfl), takeIdentity_departing]
      rfl
    · rintro rfl
      rw [hrow (.inr rfl), takeIdentity_returning]
      rfl
  · have hpoll : f = .nothing ∨ (∃ id, f = .scan id) ∨ ∃ i b n k l, f = .identity i b n k l := by
      rcases huse with ⟨_, hf | hf⟩ | ⟨_, hf⟩ | ⟨_, hf⟩
      · exact .inl hf
      · exact .inr (.inl hf)
      · exact hf
      · exact .inr (.inr hf)
    have hne : s.dock.session ≠ .idle := by rcases huse with ⟨hs, _⟩ | ⟨hs, _⟩ | ⟨hs, _⟩ <;> rw [hs] <;> decide
    have hquiet : s.dock.session.sendsAtOnce = false := by rcases huse with ⟨hs, _⟩ | ⟨hs, _⟩ | ⟨hs, _⟩ <;> rw [hs] <;> rfl
    have hignored : s.accepting.actOn f = s.accepting := actOn_ignored (huse.imp_right (.imp_left (.imp_left .inl)))
    rw [exec_accepted h ho hp hle hne hc hok (admits_poll hframe hpoll), hignored, sendAtOnce_interval (s := s.accepting) hquiet]
    rfl
  · have hignored : s.accepting.actOn f = s.accepting := actOn_ignored (.inr (.inl ⟨.inr hs, hf⟩))
    have hsends : s.accepting.dock.session.sendsAtOnce = true := congrArg SessionState.sendsAtOnce hs
    have hframe' : s.accepting.stateFrame = some d := stateFrame_of_session (.inr (.inr (.inr (.inr (.inl ⟨hs, hd⟩)))))
    rw [exec_accepted h ho hp hle (hbusy hs nofun) hc hok (admits_poll hframe hf), hignored, sendAtOnce_free hsends rfl hframe']
    rfl
  · rw [exec_malformedCaseFrame h, hbytes, exec_caseAnswer h hc]

/-! ### The kept summary -/

/-- Settles O48: clamping to the nearer end is a minimum and a maximum; the total is at most 24 times the longest interval. -/
theorem keptSummaryIsClamped : Obligations.KeptSummaryIsClamped := by
  intro intervals clamp hclamp
  have hlist : keptSummary intervals = ((intervals.take 24).map clamp).filter (fun i => decide (i.minutes ≠ 0)) := by
    have hone : clamp = fun i : RawInterval =>
        ⟨min i.minutes.toNat 240, min i.rh.toNat 1000, max (-200) (min 600 i.temperature.toInt)⟩ := by
      funext i
      rw [hclamp]
      congr 1 <;> split <;> omega
    rw [keptSummary, hone]
    congr 1
    funext i
    exact Bool.eq_iff_iff.2 (by simp)
  have hlength : (keptSummary intervals).length ≤ 24 := by
    rw [hlist]
    refine (List.length_filter_le _ _).trans ?_
    rw [List.length_map, List.length_take]
    exact Nat.min_le_left _ _
  have hrange : ∀ i ∈ keptSummary intervals,
      1 ≤ i.minutes ∧ i.minutes ≤ 240 ∧ i.rh ≤ 1000 ∧ -200 ≤ i.temperature ∧ i.temperature ≤ 600 := by
    intro i hi
    rw [hlist, List.mem_filter, List.mem_map] at hi
    obtain ⟨⟨r, _, rfl⟩, hpos⟩ := hi
    have hpos := of_decide_eq_true hpos
    rw [hclamp] at hpos ⊢
    dsimp only at hpos ⊢
    refine ⟨Nat.pos_of_ne_zero hpos, ?_, ?_, ?_, ?_⟩
    · split <;> omega
    · split <;> omega
    · split
      · omega
      · split <;> omega
    · split
      · omega
      · split <;> omega
  refine ⟨hlist, hlength, hrange, ?_⟩
  have htotal := List.sum_le_card_nsmul ((keptSummary intervals).map (·.minutes)) 240 fun m hm => by
    obtain ⟨i, hi, rfl⟩ := List.mem_map.1 hm
    exact (hrange i hi).2.1
  rw [List.length_map, smul_eq_mul] at htotal
  omega

/-! ### The end of the handover -/

theorem exec_refusedDisplayExpiry {s : State} (h : s.settled = true) : exec .refusedDisplayExpiry s =
    .next (if s.dock.indicator = .refused then s.withDock { s.dock with indicator := .off, displayTimer := none } else s) :=
  taken_of_settled h fun t => if t.dock.indicator = .refused then t.withDock { t.dock with indicator := .off, displayTimer := none } else t

/-- Settles O53: DONE, the removal and the third fault end a session in COMMITTING by `endCommitted_eq`. -/
theorem doneEndsTheHandover : Obligations.DoneEndsTheHandover := by
  refine ⟨fun s o i h ho hframe hp hs hi count outcome hle houtcome => ?_, fun s h hs => ?_, fun s h => ⟨fun hshown => ?_, fun hother => ?_⟩⟩
  · obtain ⟨u, hu⟩ : ∃ u, u = s.accepting := ⟨_, rfl⟩
    have hdone : u.actOn (.done count) = u.endCommitted outcome := by
      have hsession : u.dock.session = .committing := by rw [hu]; exact hs
      have hidentity : u.dock.identity = some i := by rw [hu]; exact hi
      rw [actOn_done hsession, State.judgeDone, hidentity, houtcome]
      by_cases hcount : count.toNat = (i.count + 1) % 65536
      · rw [if_pos hcount]
        exact if_pos (congrArg some hcount.symm)
      · rw [if_neg hcount]
        exact if_neg fun hsame => hcount (Option.some.inj hsame).symm
    rw [exec_accepted h ho hp hle (by rw [hs]; decide) (c := .done count) rfl rfl (by rw [hframe]; rfl), ← hu, hdone, endCommitted_eq,
      sendAtOnce_interval rfl, hu]
    exact congrArg (fun n => Host.Outcome.next (State.withNotices _ n)) (emit_notices_congr _ _ _ rfl rfl rfl)
  · have hleaves : s.caseLeaves = (s.withPins { s.pins with casePresent := false }).endCommitted .handoverUnconfirmed := by
      simp only [State.caseLeaves, hs]
    have hrow : exec .caseRemoval s = .next s.caseLeaves := taken_of_settled h _
    rw [hrow, hleaves, endCommitted_eq]
    exact congrArg (fun n => Host.Outcome.next (State.withNotices _ n)) (emit_notices_congr _ _ _ rfl rfl rfl)
  · rw [exec_refusedDisplayExpiry h, if_pos hshown]
    rfl
  · rw [exec_refusedDisplayExpiry h, if_neg hother]

end Sys2Proof.Machine

namespace Sys2Proof.Machine

/-! ### Scans judged -/

/-- The idle timer restarted by a SCAN (R62). -/
def State.idleRestarted (s : State) : State := s.withDock { s.dock with idleTimer := some s.now }

/-- What precedes the conditions of the intent, in the order of R60 to R62. -/
theorem judgeScan_eq (s : State) (id : Ident) : s.judgeScan id =
    if s.fire.seq = .alarm1 then s.idleRestarted.setVerdict .held
    else if identOk id = false then s.idleRestarted.setVerdict (.rejected .malformed)
    else if s.scanned id = true then s.idleRestarted.setVerdict .accepted
    else if s.dock.intent = some .returning then s.idleRestarted.judgeReturnScan id
    else s.idleRestarted.judgeDepartScan id := by
  unfold State.judgeScan
  cases identOk id <;> rcases s.dock.intent with _ | _ | _ <;> rfl

/-- A scan leaves the session state. -/
theorem judgeScan_session (s : State) (id : Ident) : (s.judgeScan id).dock.session = s.dock.session := by
  unfold State.judgeScan State.judgeDepartScan State.judgeReturnScan
  dsimp only
  repeat' split
  all_goals rfl

/-- An identifier that is not RESERVED for the bound manifest (R60). -/
theorem judgeDepartScan_foreign {s : State} {id : Ident}
    (h : ∀ x p n, s.find id = some x → x.st = .reserved p n → s.dock.manifest ≠ some n) :
    s.judgeDepartScan id = s.setVerdict (.rejected .notOnManifest) := by
  unfold State.judgeDepartScan
  split
  · rfl
  · split
    · exact if_neg (h _ _ _ ‹_› ‹_›)
    · rfl

/-- A RESERVED member of the bound manifest (R60). -/
theorem judgeDepartScan_member {s : State} {id : Ident} {x : Record} {p : Position} {n : Nat} (hx : s.find id = some x)
    (hst : x.st = .reserved p n) (hn : s.dock.manifest = some n) : s.judgeDepartScan id =
      if 32 ≤ s.dock.scans.length then s.setVerdict (.rejected .listFull)
      else (s.putRecord (x.enter (.loading p n) s.minute)).appendScan ⟨id, .record false⟩ := by
  simp only [State.judgeDepartScan, hx, hst, hn, if_true]
  by_cases hfull : 32 ≤ s.dock.scans.length
  · rw [if_pos hfull, if_pos (show s.listFull = true from decide_eq_true hfull)]
  · rw [if_neg hfull, if_neg fun h : s.listFull = true => hfull (of_decide_eq_true h)]

/-- A full list refuses any RETURN scan (R61). -/
theorem judgeReturnScan_full {s : State} (id : Ident) (h : 32 ≤ s.dock.scans.length) :
    s.judgeReturnScan id = s.setVerdict (.rejected .listFull) := if_pos (decide_eq_true h)

/-- A RETURN scan with room in the list, by the record of the identifier (R61). -/
theorem judgeReturnScan_room {s : State} (id : Ident) (h : s.dock.scans.length < 32) :
    (∀ x, s.find id = some x → x.st.code ≠ 3 → s.judgeReturnScan id = s.setVerdict (.rejected .duplicate)) ∧
    (∀ x c, s.find id = some x → x.st = .out c → s.judgeReturnScan id = (s.putRecord (x.enter (.returning c) s.minute)).appendScan
      ⟨id, .record (decide (s.dock.identity.map (·.caseId) ≠ some c.caseId))⟩) ∧
    (s.find id = none → s.judgeReturnScan id =
      if s.occupancy < 1024 then s.appendScan ⟨id, .unregistered⟩ else s.setVerdict (.rejected .registerFull)) := by
  have hroom : ¬s.listFull = true := fun hfull => absurd (of_decide_eq_true hfull) (Nat.not_le.2 h)
  refine ⟨fun x hx hcode => ?_, fun x c hx hst => ?_, fun hx => ?_⟩ <;> simp only [State.judgeReturnScan, if_neg hroom, hx]
  · split
    · simp [RecState.code, *] at hcode
    · rfl
  · rw [hst]
  · rfl

/-- The accepted SCAN's state with its scan list and its verdict (R59, R62). -/
def State.scannedWith (s : State) (list : List ScanEntry) (verdict : Verdict) : State :=
  { s with dock := { s.dock with outstanding := none, faults := 0, idleTimer := some s.now, scans := list, verdict := verdict } }

/-- The row of a SCAN that is accepted in LOADING. -/
theorem exec_scan {s : State} {o : Outstanding} {v : Verdict} {id : Ident} (h : s.settled = true) (ho : s.dock.outstanding = some o)
    (hframe : o.frame = .poll v) (hle : s.now ≤ o.sentAt + 500) (hp : s.dock.pendingAbort = none) (hs : s.dock.session = .loading)
    (hid : id.length = 10) : exec (.scan id) s = .next (
      if s.fire.seq = .alarm1 then s.scannedWith s.dock.scans .held
      else if identOk id = false then s.scannedWith s.dock.scans (.rejected .malformed)
      else if s.scanned id = true then s.scannedWith s.dock.scans .accepted
      else if s.dock.intent = some .returning then s.accepting.idleRestarted.judgeReturnScan id
      else s.accepting.idleRestarted.judgeDepartScan id) := by
  have hquiet : (s.accepting.judgeScan id).dock.session.sendsAtOnce = false := by
    rw [judgeScan_session, accepting_session, hs]
    rfl
  rw [exec_accepted h ho hp hle (by rw [hs]; decide) (c := .scan id) rfl (beq_iff_eq.2 hid) (admits_poll hframe (.inr (.inl ⟨id, rfl⟩))),
    actOn_scan (s := s.accepting) hs, sendAtOnce_interval hquiet]
  exact congrArg _ (judgeScan_eq s.accepting id)

/-- Settles O49: the conditions in their order; each branch is the accepted state with its list, its verdict and at most one record put. -/
theorem scansAreJudgedInOrder : Obligations.ScansAreJudgedInOrder := by
  intro s o v id h ho hframe hle hp hs hid
  have hrow := exec_scan h ho hframe hle hp hs hid
  obtain ⟨u, hu⟩ : ∃ u, u = s.accepting.idleRestarted := ⟨_, rfl⟩
  have hverdict (verdict : Verdict) : u.setVerdict verdict = s.scannedWith s.dock.scans verdict := by rw [hu]; rfl
  have happend (e : ScanEntry) : u.appendScan e = s.scannedWith (s.dock.scans ++ [e]) .accepted := by rw [hu]; rfl
  have hput (e : ScanEntry) (x : Record) :
      (u.putRecord x).appendScan e = (s.scannedWith (s.dock.scans ++ [e]) .accepted).putRecord x := by rw [hu]; rfl
  have hscans : u.dock.scans = s.dock.scans := by rw [hu]; rfl
  have hmanifest : u.dock.manifest = s.dock.manifest := by rw [hu]; rfl
  have hidentity : u.dock.identity = s.dock.identity := by rw [hu]; rfl
  have hfind : u.find id = s.find id := by rw [hu]; rfl
  have hminute : u.minute = s.minute := by rw [hu]; rfl
  have hoccupancy : u.occupancy = s.occupancy := by rw [hu]; rfl
  rw [← hu] at hrow
  refine ⟨s.scannedWith, fun _ _ => rfl, fun hheld => ?_, fun hnone hbad => ?_, fun hnone hok hlisted => ?_,
    fun hnone hok hnew => ⟨fun hintent => ?_, fun hintent => ?_⟩⟩
  · rw [hrow, if_pos hheld]
  all_goals rw [if_neg hnone] at hrow
  · rw [hrow, if_pos hbad]
  all_goals rw [if_neg (by rw [hok]; decide)] at hrow
  · rw [hrow, if_pos hlisted]
  all_goals rw [if_neg (Bool.eq_false_iff.1 hnew)] at hrow
  · rw [if_neg (by rw [hintent]; decide)] at hrow
    refine ⟨fun hforeign => ?_, fun x p n hx hst hn => ?_⟩
    · rw [hrow, judgeDepartScan_foreign (by rw [hfind, hmanifest]; exact hforeign), hverdict]
    · rw [judgeDepartScan_member (hfind.trans hx) hst (hmanifest.trans hn), hscans] at hrow
      refine ⟨fun hfull => ?_, fun hroom => ?_⟩
      · rw [hrow, if_pos hfull, hverdict]
      · rw [hrow, if_neg (Nat.not_le.2 hroom), hput, hminute]
        rfl
  · rw [if_pos hintent] at hrow
    refine ⟨fun hfull => ?_, fun hroom => ?_⟩
    · rw [hrow, judgeReturnScan_full id (hscans ▸ hfull), hverdict]
    · obtain ⟨hheld, hout, hfree⟩ := judgeReturnScan_room (s := u) id (hscans ▸ hroom)
      rw [hfind] at hheld hout hfree
      refine ⟨fun x hx hcode => ?_, fun x c hx hst => ?_, fun hx hspace => ?_, fun hx hspace => ?_⟩
      · rw [hrow, hheld x hx hcode, hverdict]
      · rw [hrow, hout x c hx hst, hput, hminute, hidentity]
        rfl
      · rw [hrow, hfree hx, hoccupancy, if_pos hspace, happend]
      · rw [hrow, hfree hx, hoccupancy, if_neg (Nat.not_lt.2 hspace), hverdict]

end Sys2Proof.Machine

namespace Sys2Proof.Machine

/-! ### The commit point -/

/-- The row of an ECHO that is accepted in SEALING. -/
theorem exec_echo {s : State} {o : Outstanding} (h : s.settled = true) (ho : s.dock.outstanding = some o)
    (hframe : ∃ k d, o.frame = .digest k d) (hle : s.now ≤ o.sentAt + 500) (hp : s.dock.pendingAbort = none)
    (hs : s.dock.session = .sealing) (count : Byte) (digest : Word16) :
    exec (.echo count digest) s = .next (s.accepting.judgeEcho count digest).sendAtOnce := by
  obtain ⟨k, d, hframe⟩ := hframe
  rw [exec_accepted h ho hp hle (by rw [hs]; decide) (c := .echo count digest) rfl rfl (by rw [hframe]; rfl),
    actOn_echo (s := s.accepting) hs]

/-- An ECHO of the list's count and digest is the commit point (R66). -/
theorem judgeEcho_matching {s : State} {i : CaseIdentity} (hi : s.dock.identity = some i) (hlist : s.dock.scans.length ≤ 32) :
    s.judgeEcho (BitVec.ofNat 8 s.dock.scans.length) (crc (s.dock.scans.flatMap fun e => e.id)) = s.commitPoint i := by
  have hcount : (BitVec.ofNat 8 s.dock.scans.length).toNat = s.dock.scans.length := by
    rw [BitVec.toNat_ofNat]
    omega
  unfold State.judgeEcho
  rw [if_pos ⟨hcount, rfl⟩, hi]

/-- An ECHO of another count or digest (R66). -/
theorem judgeEcho_mismatch {s : State} {count : Byte} {digest : Word16}
    (h : count.toNat ≠ s.dock.scans.length ∨ digest ≠ crc (s.dock.scans.flatMap fun e => e.id)) :
    s.judgeEcho count digest = s.endUncommitted .digestMismatch :=
  if_neg fun ⟨hcount, hdigest⟩ => h.elim (· hcount) (· hdigest)

theorem commitPoint_departing {s : State} (i : CaseIdentity) (hready : s.dock.scans.all s.entryReady = true)
    (hintent : s.dock.intent = some .departing) : s.commitPoint i = s.departed i := by
  unfold State.commitPoint
  rw [if_pos hready, hintent]
  rfl

theorem commitPoint_returning {s : State} (i : CaseIdentity) (hready : s.dock.scans.all s.entryReady = true)
    (hintent : s.dock.intent = some .returning) : s.commitPoint i = s.returned i := by
  unfold State.commitPoint
  rw [if_pos hready, hintent]
  rfl

/-- COMMIT is sent at once from the commit point (log 28). -/
theorem sendAtOnce_committing {s : State} (hs : s.dock.session = .committing) (ho : s.dock.outstanding = none) :
    s.sendAtOnce = s.sendFrame .commit :=
  sendAtOnce_free (by rw [hs]; rfl) ho (by rw [State.stateFrame, hs])

/-- A record as the commit of a DEPART session leaves it, by its state. -/
theorem departedRecord_written {s : State} {n : Nat} (hn : s.dock.manifest = some n) (i : CaseIdentity) :
    s.departedRecord i = fun r => match r.st with
      | .loading p m =>
        if r.id ∈ s.dock.scans.map (·.id) then
          { r with st := .out ⟨i.caseId, (i.count + 1) % 65536, s.minute⟩, exposure := none, logAbsent := false,
                   stateMinute := s.minute }
        else { r with st := .loading p m }
      | .reserved p m => if m = n then { r with st := .shelved (some p), stateMinute := s.minute } else r
      | _ => r := by
  funext ⟨id, st, exposure, logAbsent, minute⟩
  rw [State.departedRecord, hn]
  cases st with
  | loading p m =>
    by_cases hid : id ∈ s.dock.scans.map (·.id)
    · simp only [departRecord, List.contains_iff_mem, hid, if_true, releaseMember, Record.enter]
      rfl
    · simp only [departRecord, List.contains_iff_mem, hid, if_false, releaseMember]
  | _ => rfl

/-- Settles O50: the commit change of a DEPART session, written out, with COMMIT sent. -/
theorem departEchoCommits : Obligations.DepartEchoCommits := by
  intro s o i n h ho hframe hle hp hs hintent hi hn hone hlist hready
  obtain ⟨t, ht⟩ : ∃ t, t = s.accepting.departed i := ⟨_, rfl⟩
  have hcommit : (s.accepting.judgeEcho (BitVec.ofNat 8 s.dock.scans.length) (crc (s.dock.scans.flatMap fun e => e.id))).sendAtOnce =
      t.sendFrame .commit := by
    have hpoint := (judgeEcho_matching (s := s.accepting) hi hlist).trans (commitPoint_departing i hready hintent)
    rw [ht, ← sendAtOnce_committing (s := s.accepting.departed i) rfl rfl]
    exact congrArg _ hpoint
  have hregister := register_departed s.accepting i
  rw [departedRecord_written (s := s.accepting) hn, ← ht] at hregister
  have hmanifests : t.custody.manifests = s.custody.manifests.set (n - 1) none := by
    rw [← setEntry_one hone, ht]
    exact congrArg (setEntry 1 s.custody.manifests · none) (congrArg (Option.getD · 0) hn)
  have hdock : t.dock = { s.accepting.dock with
      session := .committing, scans := [], faults := 0,
      commit := some ⟨s.dock.scans.length, s.dock.scans.length, s.custody.register.countP (isReservedFor n), 0, 0, 0⟩ } := by
    rw [ht, show n = s.dock.manifest.getD 0 by rw [hn]; rfl]
    rfl
  have hrest : t = { s with custody := { s.custody with manifests := t.custody.manifests, register := t.custody.register }, dock := t.dock } := by
    rw [ht]
    rfl
  refine ⟨_, (exec_echo h ho hframe hle hp hs _ _).trans (congrArg _ hcommit), ?_⟩
  rw [hrest, hregister, hmanifests, hdock]
  rfl

/-! ### The commit of a RETURN session -/

/-- Events' notices depend on the request unit, the notice unit and the zone clock alone. -/
theorem emitAll_notices_congr {s t : State} (l : List Event) (h1 : s.request = t.request) (h2 : s.notices = t.notices)
    (h3 : s.custody.zoneClock = t.custody.zoneClock) : (s.emitAll l).notices = (t.emitAll l).notices := by
  induction l generalizing s t with
  | nil => exact h2
  | cons e l ih =>
    exact ih (by rw [State.emit_request, State.emit_request, h1]) (emit_notices_congr s t e h1 h2 h3)
      (by rw [State.emit_custody, State.emit_custody, h3])

/-- Records put change the register alone. -/
theorem foldl_putRecord_setRegister (l : List Record) (s : State) :
    l.foldl State.putRecord s = s.setRegister (l.foldl State.putRecord s).custody.register := by
  induction l generalizing s with
  | nil => rfl
  | cons r l ih =>
    rw [List.foldl_cons, ih]
    rfl

/-- The commit of a RETURN session: the settled records put, the counts by classification taken, the SUSPECT ENTRY events emitted. -/
theorem returned_eq (s : State) (i : CaseIdentity) : s.returned i =
    ((s.setRegister ((s.settledRecords i).foldl State.putRecord s).custody.register).withDock { s.dock with
      session := .committing, scans := [], faults := 0,
      commit := some ⟨s.dock.scans.length, 0, 0, (s.settledRecords i).countP fun r => r.st.code == 5,
        (s.settledRecords i).countP fun r => r.st.code == 0, (s.settledRecords i).countP fun r => r.st.code == 6⟩ }).withNotices
      (s.emitAll ((s.settledRecords i).filterMap suspectEvent)).notices := by
  have hput := foldl_putRecord_setRegister (s.settledRecords i) s
  rw [State.returned, State.commitReturn]
  dsimp only
  rw [emitAll_withNotices, emitAll_notices_congr (t := s), hput]
  · rfl
  all_goals rw [hput]; rfl

/-- In a list with no identifier twice a record is the first with its identifier. -/
theorem find?_id_of_mem {l : List Record} (hl : (l.map (·.id)).Nodup) {r : Record} (hr : r ∈ l) :
    l.find? (fun y => decide (y.id = r.id)) = some r := by
  cases hy : l.find? (fun y => decide (y.id = r.id)) with
  | none => exact absurd (decide_eq_true rfl) (List.find?_eq_none.1 hy r hr)
  | some y => exact congrArg some (List.inj_on_of_nodup_map hl (List.mem_of_find?_eq_some hy) hr (findBy_key Record.id hy))

/-- The settled record of each entry is found, and other identifiers read as before. -/
theorem find_settled {s : State} (i : CaseIdentity) (hnodup : (s.dock.scans.map (·.id)).Nodup) :
    (∀ e ∈ s.dock.scans, ((s.settledRecords i).foldl State.putRecord s).find e.id =
      some (settleEntry s.cfg i s.minute e ((s.find e.id).bind (·.st.case)))) ∧
    ∀ id, id ∉ s.dock.scans.map (·.id) → ((s.settledRecords i).foldl State.putRecord s).find id = s.find id := by
  have hids := settledRecords_ids s i
  have hfind (id : Ident) := find_foldl_putRecord (s.settledRecords i) s id (hids ▸ hnodup)
  refine ⟨fun e he => ?_, fun id hid => ?_⟩
  · have hmem : settleEntry s.cfg i s.minute e ((s.find e.id).bind (·.st.case)) ∈ s.settledRecords i := List.mem_map_of_mem he
    have hfirst : (s.settledRecords i).find? (fun r => decide (r.id = e.id)) =
        some (settleEntry s.cfg i s.minute e ((s.find e.id).bind (·.st.case))) := find?_id_of_mem (hids ▸ hnodup) hmem
    rw [hfind, hfirst]
  · have hnone : (s.settledRecords i).find? (fun r => decide (r.id = id)) = none := by
      refine List.find?_eq_none.2 fun r hr hid' => hid ?_
      rw [← hids, ← of_decide_eq_true hid']
      exact List.mem_map_of_mem hr
    rw [hfind, hnone]

/-- Settles O51: the matching ECHO commits by `returned_eq` and `find_settled`, another one ends the session. -/
theorem returnEchoSettlesOrMismatchReverts : Obligations.ReturnEchoSettlesOrMismatchReverts := by
  intro s o i h ho hframe hle hp hs hi hlist
  refine ⟨fun hintent hready hnodup settled hsettled => ?_, fun count digest hother => ?_⟩
  · obtain ⟨t, ht⟩ : ∃ t, t = s.accepting.returned i := ⟨_, rfl⟩
    have hcommit : (s.accepting.judgeEcho (BitVec.ofNat 8 s.dock.scans.length) (crc (s.dock.scans.flatMap fun e => e.id))).sendAtOnce =
        t.sendFrame .commit := by
      have hpoint := (judgeEcho_matching (s := s.accepting) hi hlist).trans (commitPoint_returning i hready hintent)
      rw [← ht] at hpoint
      rw [← sendAtOnce_committing (s := t) (by rw [ht, returned_eq]; rfl) (by rw [ht, returned_eq]; rfl)]
      exact congrArg _ hpoint
    have hrecords : s.accepting.settledRecords i = settled := hsettled.symm
    obtain ⟨hentries, hothers⟩ := find_settled (s := s.accepting) i hnodup
    have hreturned := returned_eq s.accepting i
    rw [← ht, hrecords] at hreturned
    rw [hrecords] at hentries hothers
    refine ⟨_, (exec_echo h ho hframe hle hp hs _ _).trans (congrArg _ hcommit), ?_, fun e he => ?_, fun id hid => ?_, ?_, ?_⟩
    · rw [hreturned]
      rfl
    · rw [hreturned]
      exact hentries e he
    · rw [hreturned]
      exact hothers id hid
    · rw [hreturned]
      rfl
    · rw [hreturned]
      exact emitAll_notices_congr _ rfl rfl rfl
  · have hended : (s.accepting.judgeEcho count digest).sendAtOnce = s.accepting.endUncommitted .digestMismatch := by
      rw [judgeEcho_mismatch (s := s.accepting) hother, sendAtOnce_interval (by rw [session_endUncommitted]; rfl)]
    refine ⟨_, (exec_echo h ho hframe hle hp hs count digest).trans (congrArg _ hended), ?_⟩
    exact endedUncommitted_of_withDock (d := s.accepting.dock) ⟨rfl, rfl, rfl, rfl, rfl, rfl, rfl⟩
      (endUncommitted_spec s.accepting .digestMismatch nofun hp)

end Sys2Proof.Machine

namespace Sys2Proof.Machine

/-! ### The three conditions (R120) -/

theorem mem_channelNumbers (c : Nat) : c ∈ channelNumbers ↔ c < 8 := by
  simp only [channelNumbers, List.mem_cons, List.not_mem_nil, or_false]
  omega

theorem inService_iff (s : State) (c : Nat) : s.inService c = true ↔ s.group c ≠ .unused ∧ s.channel c ≠ .fault := by
  simp only [State.inService, Bool.and_eq_true, bne_iff_ne]

theorem mem_alarmChannels (s : State) (c : Nat) : c ∈ s.alarmChannels ↔ c < 8 ∧ s.group c ≠ .unused ∧ s.channel c = .alarm := by
  simp only [State.alarmChannels, List.mem_filter, mem_channelNumbers, Bool.and_eq_true, inService_iff, beq_iff_eq]
  refine and_congr_right fun _ => ⟨fun ⟨⟨hgroup, _⟩, halarm⟩ => ⟨hgroup, halarm⟩, fun ⟨hgroup, halarm⟩ => ⟨⟨hgroup, ?_⟩, halarm⟩⟩
  rw [halarm]
  decide

theorem alertCondition_iff (s : State) : s.alertCondition = true ↔ ∃ c, c < 8 ∧ s.group c ≠ .unused ∧ s.channel c = .alert := by
  simp only [State.alertCondition, List.any_eq_true, mem_channelNumbers, Bool.and_eq_true, inService_iff, beq_iff_eq]
  refine exists_congr fun c => and_congr_right fun _ => ⟨fun ⟨⟨hgroup, _⟩, halert⟩ => ⟨hgroup, halert⟩,
    fun ⟨hgroup, halert⟩ => ⟨⟨hgroup, ?_⟩, halert⟩⟩
  rw [halert]
  decide

theorem alarmCondition_iff (s : State) : s.alarmCondition = true ↔ ∃ c, c < 8 ∧ s.group c ≠ .unused ∧ s.channel c = .alarm := by
  rw [State.alarmCondition, Bool.not_eq_true', ← Bool.not_eq_true, List.isEmpty_iff, List.eq_nil_iff_forall_not_mem]
  simp only [mem_alarmChannels, not_forall, not_not]

/-- A channel that serves a group: assigned to it and not in FAULT (R116). -/
def State.serves (s : State) (g : Group) (c : Nat) : Prop := c < 8 ∧ s.group c = g ∧ s.channel c ≠ .fault

theorem groupInService_isEmpty {s : State} {g : Group} (hg : g ≠ .unused) : (s.groupInService g).isEmpty = true ↔ ∀ c, ¬s.serves g c := by
  rw [List.isEmpty_iff, List.eq_nil_iff_forall_not_mem]
  refine forall_congr' fun c => not_congr ?_
  simp only [State.groupInService, List.mem_filter, mem_channelNumbers, Bool.and_eq_true, beq_iff_eq, inService_iff, State.serves]
  exact ⟨fun ⟨h8, hgroup, _, hfault⟩ => ⟨h8, hgroup, hfault⟩, fun ⟨h8, hgroup, hfault⟩ => ⟨h8, hgroup, hgroup ▸ hg, hfault⟩⟩

/-- The channels in ALARM that serve a group. -/
theorem mem_groupAlarms {s : State} {g : Group} (hg : g ≠ .unused) (c : Nat) :
    c ∈ s.alarmChannels.filter (fun c => s.group c == g) ↔ s.serves g c ∧ s.channel c = .alarm := by
  simp only [List.mem_filter, mem_alarmChannels, beq_iff_eq, State.serves]
  refine ⟨fun ⟨⟨h8, _, halarm⟩, hgroup⟩ => ⟨⟨h8, hgroup, ?_⟩, halarm⟩,
    fun ⟨⟨h8, hgroup, _⟩, halarm⟩ => ⟨⟨h8, hgroup ▸ hg, halarm⟩, hgroup⟩⟩
  rw [halarm]
  decide

theorem one_le_groupAlarms {s : State} {g : Group} (hg : g ≠ .unused) :
    1 ≤ s.groupAlarms g ↔ ∃ c, s.serves g c ∧ s.channel c = .alarm := by
  rw [State.groupAlarms, List.countP_eq_length_filter, Nat.one_le_iff_ne_zero, ← Nat.pos_iff_ne_zero, List.length_pos_iff_exists_mem]
  exact exists_congr fun c => mem_groupAlarms hg c

theorem two_le_groupAlarms {s : State} {g : Group} (hg : g ≠ .unused) :
    2 ≤ s.groupAlarms g ↔ ∃ c d, c ≠ d ∧ s.serves g c ∧ s.serves g d ∧ s.channel c = .alarm ∧ s.channel d = .alarm := by
  have hnodup : (s.alarmChannels.filter fun c => s.group c == g).Nodup := ((by decide : channelNumbers.Nodup).filter _).filter _
  rw [State.groupAlarms, List.countP_eq_length_filter, ← List.toFinset_card_of_nodup hnodup]
  change 1 < _ ↔ _
  rw [Finset.one_lt_card]
  simp only [List.mem_toFinset, mem_groupAlarms hg]
  exact ⟨fun ⟨c, ⟨hc, hca⟩, d, ⟨hd, hda⟩, hne⟩ => ⟨c, d, hne, hc, hd, hca, hda⟩,
    fun ⟨c, d, hne, hc, hd, hca, hda⟩ => ⟨c, ⟨hc, hca⟩, d, ⟨hd, hda⟩, hne⟩⟩

/-- The confirmation condition by the groups that have a serving channel (R120). -/
theorem confirmationCondition_iff (s : State) : s.confirmationCondition = true ↔
    (∃ c, s.serves .a c ∧ s.channel c = .alarm) ∧ (∃ c, s.serves .b c ∧ s.channel c = .alarm) ∨
      ∃ g other, (g = .a ∧ other = .b ∨ g = .b ∧ other = .a) ∧ (∀ c, ¬s.serves other c) ∧
        ∃ c d, c ≠ d ∧ s.serves g c ∧ s.serves g d ∧ s.channel c = .alarm ∧ s.channel d = .alarm := by
  have hA : Group.a ≠ .unused := nofun
  have hB : Group.b ≠ .unused := nofun
  have hserved {g : Group} (hg : g ≠ .unused) (h : (s.groupInService g).isEmpty = false) : ¬∀ c, ¬s.serves g c := fun hnone => by
    rw [(groupInService_isEmpty hg).2 hnone] at h
    cases h
  unfold State.confirmationCondition
  cases ha : (s.groupInService .a).isEmpty <;> cases hb : (s.groupInService .b).isEmpty
  · have hna := hserved hA ha
    have hnb := hserved hB hb
    rw [Bool.and_eq_true, decide_eq_true_eq, decide_eq_true_eq, one_le_groupAlarms hA, one_le_groupAlarms hB]
    refine ⟨.inl, fun h => h.elim id ?_⟩
    rintro ⟨_, _, ⟨rfl, rfl⟩ | ⟨rfl, rfl⟩, hnone, _⟩
    · exact absurd hnone hnb
    · exact absurd hnone hna
  · have hnone := (groupInService_isEmpty hB).1 hb
    rw [decide_eq_true_eq, two_le_groupAlarms hA]
    refine ⟨fun h => .inr ⟨.a, .b, .inl ⟨rfl, rfl⟩, hnone, h⟩, ?_⟩
    rintro (⟨_, c, hc, _⟩ | ⟨_, _, ⟨rfl, rfl⟩ | ⟨rfl, rfl⟩, _, h⟩)
    · exact absurd hc (hnone c)
    · exact h
    · obtain ⟨c, _, _, hc, _⟩ := h
      exact absurd hc (hnone c)
  · have hnone := (groupInService_isEmpty hA).1 ha
    rw [decide_eq_true_eq, two_le_groupAlarms hB]
    refine ⟨fun h => .inr ⟨.b, .a, .inr ⟨rfl, rfl⟩, hnone, h⟩, ?_⟩
    rintro (⟨⟨c, hc, _⟩, _⟩ | ⟨_, _, ⟨rfl, rfl⟩ | ⟨rfl, rfl⟩, _, h⟩)
    · exact absurd hc (hnone c)
    · obtain ⟨c, _, _, hc, _⟩ := h
      exact absurd hc (hnone c)
    · exact h
  · have hna := (groupInService_isEmpty hA).1 ha
    have hnb := (groupInService_isEmpty hB).1 hb
    refine ⟨fun h => (nomatch h), ?_⟩
    rintro (⟨⟨c, hc, _⟩, _⟩ | ⟨_, _, ⟨rfl, rfl⟩ | ⟨rfl, rfl⟩, _, c, _, _, hc, _⟩)
    · exact absurd hc (hna c)
    · exact absurd hc (hna c)
    · exact absurd hc (hnb c)

end Sys2Proof.Machine

namespace Sys2Proof.Machine

/-! ### What an entry to confirmation stops (R72, R155) -/

/-- The session before its commit point ended with FIRE, then the offers withdrawn. -/
def State.stopMovement (s : State) : State := s.fireEndsSession.withdrawOffers

/-- The OFFERED entries. -/
def State.offers (s : State) : List TransferEntry := s.transfer.entries.filter TransferEntry.isOffered

/-- A record once movement is stopped: reverted with the session, then restored where its entry was OFFERED. -/
def State.stoppedRecord (s : State) (r : Record) : Record :=
  if r.id ∈ s.offers.map (·.id) then restored s.cfg s.minute (if s.dock.session.beforeCommit then revertRecord s.minute r else r)
  else if s.dock.session.beforeCommit then revertRecord s.minute r else r

theorem fireEndsSession_ended {s : State} (h : s.dock.session.beforeCommit = true) : s.fireEndsSession = s.endUncommitted .fire :=
  if_pos h

theorem fireEndsSession_none {s : State} (h : s.dock.session.beforeCommit = false) : s.fireEndsSession = s :=
  if_neg (Bool.eq_false_iff.1 h)

/-- Ending the session leaves the configuration and the zone minute. -/
theorem fireEndsSession_rest (s : State) : s.fireEndsSession.cfg = s.cfg ∧ s.fireEndsSession.minute = s.minute := by
  refine ⟨by rw [State.cfg, State.fireEndsSession_request, State.cfg], ?_⟩
  unfold State.fireEndsSession
  split
  · rw [State.minute, endUncommitted_custody, revertSession_custody, State.minute]
  · rfl

theorem fireEndsSession_find (s : State) (id : Ident) : s.fireEndsSession.find id =
    (s.find id).map fun r => if s.dock.session.beforeCommit then revertRecord s.minute r else r := by
  cases h : s.dock.session.beforeCommit with
  | true =>
    rw [fireEndsSession_ended h, State.find, (reverted_endUncommitted s .fire).register]
    exact findBy_map Record.id _ (revertRecord_id s.minute) id _
  | false =>
    rw [fireEndsSession_none h]
    exact Option.map_id_fun'.symm ▸ rfl

theorem offers_fireEndsSession (s : State) : s.offers = s.fireEndsSession.transfer.entries.filter TransferEntry.isOffered := by
  rw [State.fireEndsSession_transfer]
  rfl

/-- Every identifier reads its record as `State.stoppedRecord` gives it. -/
theorem stopMovement_find (s : State) (id : Ident) : s.stopMovement.find id = (s.find id).map s.stoppedRecord := by
  obtain ⟨hfind, _⟩ := withdrawOffers_spec s.fireEndsSession s.offers (offers_fireEndsSession s)
  obtain ⟨hcfg, hminute⟩ := fireEndsSession_rest s
  rw [State.stopMovement, hfind, fireEndsSession_find, hcfg, hminute]
  cases hr : s.find id with
  | none => split <;> rfl
  | some r =>
    simp only [Option.map_some, State.stoppedRecord, key_of_find hr]
    split <;> rfl

theorem stoppedRecord_loading {s : State} {r : Record} {p : Position} {m : Nat} (h : s.dock.session.beforeCommit = true)
    (hr : r.st = .loading p m) : s.stoppedRecord r = { r with st := .reserved p m, stateMinute := s.minute } := by
  have hreverted : revertRecord s.minute r = { r with st := .reserved p m, stateMinute := s.minute } := by rw [revertRecord, hr]; rfl
  rw [State.stoppedRecord, h, if_pos rfl, hreverted]
  exact ite_self _

theorem stoppedRecord_returning {s : State} {r : Record} {f : CaseField} (h : s.dock.session.beforeCommit = true)
    (hr : r.st = .returning f) : s.stoppedRecord r = { r with st := .out f, stateMinute := s.minute } := by
  have hreverted : revertRecord s.minute r = { r with st := .out f, stateMinute := s.minute } := by rw [revertRecord, hr]; rfl
  rw [State.stoppedRecord, h, if_pos rfl, hreverted]
  exact ite_self _

/-- A record in neither LOADING nor RETURNING has nothing to revert. -/
theorem revertRecord_other {r : Record} (h2 : r.st.code ≠ 2) (h4 : r.st.code ≠ 4) (minute : Nat) : revertRecord minute r = r := by
  unfold revertRecord
  split
  · exact absurd (congrArg RecState.code ‹_›) h2
  · exact absurd (congrArg RecState.code ‹_›) h4
  · rfl

theorem restored_other {r : Record} (h7 : r.st.code ≠ 7) (c : ConfigRecord) (minute : Nat) : restored c minute r = r := by
  unfold restored
  split
  · exact absurd (congrArg RecState.code ‹_›) h7
  · rfl

theorem stoppedRecord_offered {s : State} {r : Record} (h2 : r.st.code ≠ 2) (h4 : r.st.code ≠ 4) (hid : r.id ∈ s.offers.map (·.id)) :
    s.stoppedRecord r = restored s.cfg s.minute r := by
  rw [State.stoppedRecord, if_pos hid, revertRecord_other h2 h4, ite_self]

theorem stoppedRecord_same {s : State} {r : Record} (h2 : r.st.code ≠ 2) (h4 : r.st.code ≠ 4) (h7 : r.st.code ≠ 7) :
    s.stoppedRecord r = r := by
  rw [State.stoppedRecord, revertRecord_other h2 h4, ite_self, restored_other h7, ite_self]

/-- In a sorted table the OFFERED entries are those whose identifier one of them has. -/
theorem mem_offers_ids {s : State} (hs : sortedBy TransferEntry.id s.transfer.entries = true) {e : TransferEntry}
    (he : e ∈ s.transfer.entries) : e.id ∈ s.offers.map (·.id) ↔ e.isOffered = true := by
  refine ⟨fun hid => ?_, fun hoffered => List.mem_map_of_mem (List.mem_filter.2 ⟨he, hoffered⟩)⟩
  obtain ⟨e', he', hsame⟩ := List.mem_map.1 hid
  obtain ⟨hin, hoffered⟩ := List.mem_filter.1 he'
  have hfound := findBy_of_mem TransferEntry.id hs he
  rw [← hsame, findBy_of_mem TransferEntry.id hs hin] at hfound
  cases hfound
  exact hoffered

theorem stopMovement_transfer {s : State} (hs : sortedBy TransferEntry.id s.transfer.entries = true) :
    s.stopMovement.transfer = { s.transfer with entries := s.transfer.entries.filter fun e => !e.isOffered } := by
  obtain ⟨_, htransfer, _⟩ := withdrawOffers_spec s.fireEndsSession s.offers (offers_fireEndsSession s)
  have hentries : s.transfer.entries.filter (fun e => decide (e.id ∉ s.offers.map (·.id))) =
      s.transfer.entries.filter fun e => !e.isOffered := by
    refine List.filter_congr fun e he => Bool.eq_iff_iff.2 ?_
    rw [decide_eq_true_iff, mem_offers_ids hs he, Bool.not_eq_true', Bool.not_eq_true]
  rw [State.stopMovement, htransfer, State.fireEndsSession_transfer, hentries]

theorem stopMovement_manifests (s : State) : s.stopMovement.custody.manifests = s.fireEndsSession.custody.manifests := by
  obtain ⟨_, _, hmanifests, _⟩ := withdrawOffers_spec s.fireEndsSession s.offers (offers_fireEndsSession s)
  exact hmanifests

theorem stopMovement_peerOut {s : State} (h : s.line.peerOut.length ≤ 16) : s.stopMovement.line.peerOut =
    (s.line.peerOut ++ s.offers.map fun e => (⟨e.peer, .withdraw e.id e.number⟩ : PeerOut)).take 16 := by
  obtain ⟨_, _, _, hqueue, _⟩ := withdrawOffers_spec s.fireEndsSession s.offers (offers_fireEndsSession s)
  rw [State.fireEndsSession_line] at hqueue
  exact hqueue h

/-! ### Its notices -/

/-- The end of the session leaves the other sources, and the notice table's length. -/
theorem fireEndsSession_notices (s : State) : (∀ n, n ≠ 7 → s.fireEndsSession.pendingNotice n = s.pendingNotice n) ∧
    s.fireEndsSession.notices.pending.length = s.notices.pending.length := by
  unfold State.fireEndsSession
  split
  · refine ⟨fun n hn => ?_, ?_⟩
    · rw [pendingNotice_congr n (endUncommitted_notices s .fire)]
      exact emit_pendingNotice_other s _ n hn
    · rw [endUncommitted_notices, emit_length]
  · exact ⟨fun _ _ => rfl, rfl⟩

theorem stopMovement_pendingNotice_other (s : State) {n : Nat} (h7 : n ≠ 7) (h10 : n ≠ 10) :
    s.stopMovement.pendingNotice n = s.pendingNotice n := by
  obtain ⟨_, _, _, _, hother, _⟩ := withdrawOffers_spec s.fireEndsSession s.offers (offers_fireEndsSession s)
  exact (hother n h10).trans ((fireEndsSession_notices s).1 n h7)

/-- The event of the session's end stands in its notice. -/
theorem stopMovement_report {s : State} (h : s.dock.session.beforeCommit = true) (hl : s.notices.pending.length = 16)
    (hr : s.records 7 = true) : ∃ y, s.stopMovement.pendingNotice 7 = some y ∧ y.content =
      .sessionEnded { s.report .fire s.dock.scans.length with reverted := some s.dock.scans.length } := by
  obtain ⟨_, _, _, _, hother, _⟩ := withdrawOffers_spec s.fireEndsSession s.offers (offers_fireEndsSession s)
  obtain ⟨y, hy, hc⟩ := emit_content s
    (.sessionEnded { s.report .fire s.dock.scans.length with reverted := some s.dock.scans.length }) hl hr
  refine ⟨y, ?_, hc⟩
  rw [State.stopMovement, hother 7 (by decide), fireEndsSession_ended h, pendingNotice_congr 7 (endUncommitted_notices s .fire)]
  exact hy

/-- The event of the last offer stands in its notice. -/
theorem stopMovement_outcome {s : State} {e : TransferEntry} (hl : s.notices.pending.length = 16) (hr : s.records 10 = true)
    (he : s.offers.getLast? = some e) : ∃ y, s.stopMovement.pendingNotice 10 = some y ∧
      y.content = .transferOutcome e.id .out e.peer e.number .withdrawn none s.minute := by
  obtain ⟨_, _, _, _, _, hlast⟩ := withdrawOffers_spec s.fireEndsSession s.offers (offers_fireEndsSession s)
  rw [(fireEndsSession_rest s).2] at hlast
  exact hlast e ((fireEndsSession_notices s).2.trans hl) (by rw [records_congr 10 (State.fireEndsSession_request s)]; exact hr) he

/-! ### All that it does -/

/-- What an entry to confirmation leaves of the movement that it stops, from the state `s` in which it is stopped (R37, R71, R72, R155). -/
structure State.MovementStopped (s t : State) : Prop where
  ended : t.dock.session.beforeCommit = false
  unbegun : s.dock.session.beforeCommit = false → t.dock = s.dock ∧ t.custody.manifests = s.custody.manifests
  dock : s.dock.session.beforeCommit = true → s.dock.pendingAbort = none → t.dock = { idleDock s.dock.number with
    outstanding := s.dock.outstanding,
    pendingAbort := if s.dock.outstanding.isSome then some .fire else none,
    indicator := .refused, displayTimer := some s.now,
    lastFrame := if s.dock.outstanding.isSome then s.dock.lastFrame else some (.abort .fire),
    lastSentAt := if s.dock.outstanding.isSome then s.dock.lastSentAt else some s.now }
  manifest : s.dock.session.beforeCommit = true → ∀ n, t.manifest? n =
    if s.dock.manifest = some n then (s.manifest? n).map (fun m => { m with state := .waiting }) else s.manifest? n
  find : ∀ id, t.find id = (s.find id).map s.stoppedRecord
  report : s.dock.session.beforeCommit = true → s.notices.pending.length = 16 → s.records 7 = true →
    ∃ y, t.pendingNotice 7 = some y ∧ y.content =
      .sessionEnded { s.report .fire s.dock.scans.length with reverted := some s.dock.scans.length }
  transfer : sortedBy TransferEntry.id s.transfer.entries = true →
    t.transfer = { s.transfer with entries := s.transfer.entries.filter fun e => !e.isOffered }
  peerOut : s.line.peerOut.length ≤ 16 → t.line.peerOut =
    (s.line.peerOut ++ s.offers.map fun e => (⟨e.peer, .withdraw e.id e.number⟩ : PeerOut)).take 16
  outcome : ∀ e, s.notices.pending.length = 16 → s.records 10 = true → s.offers.getLast? = some e →
    ∃ y, t.pendingNotice 10 = some y ∧ y.content = .transferOutcome e.id .out e.peer e.number .withdrawn none s.minute

theorem movementStopped (s : State) : s.MovementStopped s.stopMovement where
  ended := by
    rw [State.stopMovement, State.withdrawOffers_dock]
    cases h : s.dock.session.beforeCommit with
    | true => rw [fireEndsSession_ended h, session_endUncommitted]; rfl
    | false => rw [fireEndsSession_none h, h]
  unbegun h := by
    rw [stopMovement_manifests, State.stopMovement, State.withdrawOffers_dock, fireEndsSession_none h]
    exact ⟨rfl, rfl⟩
  dock h hp := by
    obtain ⟨_, _, _, hdock, _⟩ := endUncommitted_spec s .fire nofun hp
    rw [State.stopMovement, State.withdrawOffers_dock, fireEndsSession_ended h, hdock]
  manifest h n := by
    rw [State.manifest?, stopMovement_manifests, fireEndsSession_ended h, endUncommitted_custody, revertSession_custody,
      ← reopenManifest_manifest]
    rfl
  find := stopMovement_find s
  report := stopMovement_report
  transfer := stopMovement_transfer
  peerOut := stopMovement_peerOut
  outcome _ := stopMovement_outcome

end Sys2Proof.Machine

namespace Sys2Proof.Machine

/-! ### The change that an evaluation makes (R121, R129) -/

/-- The cause of a change to a sequence state by an evaluation (R129). -/
def State.evaluationCause (s : State) (q : Seq) : FireCause :=
  if q = .preAlert then .alert
  else if q = .quiet then .alertCleared
  else if q = .alarm1 then (if s.alarmCondition then .alarm else .manualCall)
  else if s.confirmationCondition then .confirmation else .manualCall

theorem confirms_iff (s : State) :
    s.confirms = true ↔ s.confirmationCondition = true ∨ s.fire.callLatch = true ∧ s.cfg.manualConfirms = true := by
  rw [State.confirms, Bool.or_eq_true, Bool.and_eq_true]

/-- The states that an evaluation can change. -/
theorem early_iff (q : Seq) : seqCode q < 3 ↔ q = .quiet ∨ q = .preAlert ∨ q = .alarm1 := by
  cases q <;> simp [seqCode]

/-- Where the first condition holds, an evaluation enters confirmation and stops the movement (R121, R122). -/
theorem evaluate_confirming {s : State} {q : Seq} (hq : q = s.evaluatedSeq) (hbefore : seqCode s.fire.seq < 3) (hc : s.confirms = true) :
    3 ≤ seqCode q ∧ s.evaluate = (s.enterSeq q (s.evaluationCause q)).stopMovement := by
  rw [State.evaluatedSeq, if_neg (Nat.not_le.2 hbefore), if_pos ((confirms_iff s).1 hc)] at hq
  have hstate : q = if s.fire.holdOn || s.fire.isolateOn then .confirmed else .preDischarge := by simpa only [Bool.or_eq_true] using hq
  have hlate : q = .confirmed ∨ q = .preDischarge := by
    rw [hstate]
    split <;> simp
  have hcause : s.evaluationCause q = if s.confirmationCondition then .confirmation else .manualCall := by
    rcases hlate with h | h <;> rw [h] <;> rfl
  have hevaluate : s.evaluate = s.enterConfirmation := by
    rcases (early_iff _).1 hbefore with h | h | h <;> simp only [State.evaluate, h, hc, if_true]
  refine ⟨by rcases hlate with h | h <;> rw [h] <;> decide, ?_⟩
  rw [hevaluate, hcause, hstate]
  rfl

/-- Where it does not, a change is one of the other three (R121). -/
theorem evaluate_unconfirmed {s : State} {q : Seq} (hq : q = s.evaluatedSeq) (hne : q ≠ s.fire.seq) (hbefore : seqCode s.fire.seq < 3)
    (hc : s.confirms = false) : seqCode q < 3 ∧ s.evaluate = s.enterSeq q (s.evaluationCause q) := by
  rw [State.evaluatedSeq, if_neg (Nat.not_le.2 hbefore), if_neg (by rw [← confirms_iff, hc]; decide)] at hq
  by_cases halarm : s.fire.seq ≠ .alarm1 ∧ (s.alarmCondition = true ∨ s.fire.callLatch = true)
  · have hentered : s.evaluate = s.enterAlarm := by
      rcases (early_iff _).1 hbefore with h | h | h
      · simp only [State.evaluate, h, hc, Bool.or_eq_true, halarm.2, Bool.false_eq_true, if_true, if_false]
      · simp only [State.evaluate, h, hc, Bool.or_eq_true, halarm.2, Bool.false_eq_true, if_true, if_false]
      · exact absurd h halarm.1
    rw [hq, if_pos halarm, hentered]
    exact ⟨by decide, rfl⟩
  rw [if_neg halarm] at hq
  by_cases halert : s.fire.seq = .quiet ∧ s.alertCondition = true
  · have hentered : s.evaluate = s.enterSeq .preAlert .alert := by
      simp_all [State.evaluate]
    rw [hq, if_pos halert, hentered]
    exact ⟨by decide, rfl⟩
  rw [if_neg halert] at hq
  by_cases hclear : s.fire.seq = .preAlert ∧ ¬s.alertCondition = true
  · have hentered : s.evaluate = s.enterSeq .quiet .alertCleared := by
      simp_all [State.evaluate]
    rw [hq, if_pos hclear, hentered]
    exact ⟨by decide, rfl⟩
  · exact absurd (hq.trans (if_neg hclear)) hne

/-- An evaluation that changes the sequence state enters the new one with its cause, and from confirmation on stops the movement. -/
theorem evaluate_change {s : State} {q : Seq} (hq : q = s.evaluatedSeq) (hne : q ≠ s.fire.seq) :
    (seqCode q < 3 ∧ s.evaluate = s.enterSeq q (s.evaluationCause q)) ∨
      (3 ≤ seqCode q ∧ s.evaluate = (s.enterSeq q (s.evaluationCause q)).stopMovement) := by
  have hbefore : seqCode s.fire.seq < 3 := Nat.lt_of_not_le fun h3 => hne (by rw [hq, State.evaluatedSeq, if_pos h3])
  cases hc : s.confirms with
  | true => exact .inr (evaluate_confirming hq hbefore hc)
  | false => exact .inl (evaluate_unconfirmed hq hne hbefore hc)

/-- The FIRE STATE event of a change of the sequence state. -/
theorem enterSeq_notices (s : State) (q : Seq) (c : FireCause) : (s.enterSeq q c).notices =
    (s.emit (.fireState q s.fire.seq c s.alarmChannels s.faultChannels s.fire.callOperated s.fire.callLatch s.fire.holdOn
      s.fire.isolateOn s.fire.doorOpen s.fire.agentReady s.custody.zoneClock)).notices := by
  conv_lhs => rw [enterSeq_spec]
  rfl

/-- Stopping the movement leaves the climate unit and what forces it. -/
theorem stopMovement_climate (s u : State) : s.stopMovement.climate = s.climate ∧ u.climateForcedIn s.stopMovement = u.climateForcedIn s := by
  have hclimate : s.stopMovement.climate = s.climate := by
    rw [State.stopMovement, State.withdrawOffers_climate, State.fireEndsSession_climate]
  have hforcing : s.stopMovement.forcing = s.forcing := by
    rw [State.forcing, State.configured, hclimate, State.stopMovement, State.withdrawOffers_request, State.withdrawOffers_fire,
      State.fireEndsSession_request, State.fireEndsSession_fire]
    rfl
  exact ⟨hclimate, by rw [State.climateForcedIn, hforcing]; rfl⟩

/-- An evaluation that changes the sequence state forces the climate outputs (R107). -/
theorem evaluate_climate {s : State} (hne : s.evaluatedSeq ≠ s.fire.seq) : s.evaluate.climate = s.climateForcedIn s.evaluate := by
  rcases evaluate_change rfl hne with ⟨_, h⟩ | ⟨_, h⟩ <;> rw [h]
  · exact enterSeq_climate s _ _
  · obtain ⟨hclimate, hforced⟩ := stopMovement_climate (s.enterSeq s.evaluatedSeq (s.evaluationCause s.evaluatedSeq)) s
    rw [hclimate, hforced]
    exact enterSeq_climate s _ _

/-- An evaluation's events are on FIRE STATE, DOCK AND MANIFEST and TRANSFER OUTCOME. -/
theorem evaluate_pendingNotice_other (s : State) {n : Nat} (h0 : n ≠ 0) (h7 : n ≠ 7) (h10 : n ≠ 10) :
    s.evaluate.pendingNotice n = s.pendingNotice n := by
  have hentered (q : Seq) (c : FireCause) : (s.enterSeq q c).pendingNotice n = s.pendingNotice n :=
    (pendingNotice_congr n (enterSeq_notices s q c)).trans (emit_pendingNotice_other s _ n h0)
  by_cases hsame : s.evaluatedSeq = s.fire.seq
  · rw [(evaluate_spec s).2.1 hsame]
  · rcases evaluate_change rfl hsame with ⟨_, h⟩ | ⟨_, h⟩ <;> rw [h]
    · exact hentered _ _
    · exact (stopMovement_pendingNotice_other _ h7 h10).trans (hentered _ _)

/-- The FIRE STATE event of an evaluation's change stands in its notice. -/
theorem evaluate_fireState {s : State} {q : Seq} (hq : q = s.evaluatedSeq) (hne : q ≠ s.fire.seq) (hl : s.notices.pending.length = 16)
    (hr : s.records 0 = true) : ∃ x, s.evaluate.pendingNotice 0 = some x ∧
      x.content = .fireState q s.fire.seq (s.evaluationCause q) s.alarmChannels s.faultChannels s.fire.callOperated s.fire.callLatch
        s.fire.holdOn s.fire.isolateOn s.fire.doorOpen s.fire.agentReady s.custody.zoneClock := by
  obtain ⟨x, hx, hc⟩ := emit_content s (.fireState q s.fire.seq (s.evaluationCause q) s.alarmChannels s.faultChannels
    s.fire.callOperated s.fire.callLatch s.fire.holdOn s.fire.isolateOn s.fire.doorOpen s.fire.agentReady s.custody.zoneClock) hl hr
  have hentered : (s.enterSeq q (s.evaluationCause q)).pendingNotice 0 = some x :=
    (pendingNotice_congr 0 (enterSeq_notices s q _)).trans hx
  rcases evaluate_change hq hne with ⟨_, h⟩ | ⟨_, h⟩ <;> rw [h]
  · exact ⟨x, hentered, hc⟩
  · exact ⟨x, (stopMovement_pendingNotice_other _ (by decide) (by decide)).trans hentered, hc⟩

end Sys2Proof.Machine

namespace Sys2Proof.Machine

/-! ### Movement stopped from the state that an input left -/

/-- What stopping the movement does goes by the blocks that neither the input nor the change of the sequence state touch. -/
theorem movementStopped_after {s e : State} {p : Pins} {f : FireUnit} {c : ClimateUnit} {n : NoticeUnit}
    (he : e = { s with pins := p, fire := f, climate := c, notices := n })
    (hl : e.notices.pending.length = s.notices.pending.length) : s.MovementStopped e.stopMovement := by
  subst he
  obtain ⟨hended, hunbegun, hdock, hmanifest, hfind, hreport, htransfer, hqueue, houtcome⟩ := movementStopped
    { s with pins := p, fire := f, climate := c, notices := n }
  exact ⟨hended, hunbegun, hdock, hmanifest, hfind, fun hb h16 => hreport hb (hl.trans h16), htransfer, hqueue,
    fun e h16 => houtcome e (hl.trans h16)⟩

namespace State.MovementStopped

variable {s t : State} {id : Ident} {x : Record}

theorem find_some (h : s.MovementStopped t) (hx : s.find id = some x) : t.find id = some (s.stoppedRecord x) := by
  rw [h.find, hx, Option.map_some]

theorem restored (h : s.MovementStopped t) {e : TransferEntry} (he : e ∈ s.transfer.entries) (hoffered : e.isOffered = true)
    (hx : s.find e.id = some x) {peer : PeerField} {restore : Restore} (hst : x.st = .transferring peer restore) :
    t.find e.id = some { x with
      stateMinute := s.minute,
      st := match restore.state with
        | .shelved => .shelved restore.position
        | .conditioning h => .conditioning restore.position (min h s.cfg.ceiling) } := by
  have hid : x.id ∈ s.offers.map (·.id) := key_of_find hx ▸ List.mem_map_of_mem (List.mem_filter.2 ⟨he, hoffered⟩)
  refine (h.find_some hx).trans (congrArg some ?_)
  rw [stoppedRecord_offered (by rw [hst]; exact nofun) (by rw [hst]; exact nofun) hid]
  obtain ⟨_, _, _, _, _⟩ := x
  cases hst
  rfl

end State.MovementStopped

/-! ### Inputs -/

/-- A passage into or out of FAULT of an assigned channel (R117). -/
theorem faultPassed_iff (s : State) (c : Nat) (st : ChannelState) :
    s.faultPassed c st = true ↔ s.group c ≠ .unused ∧ ¬(s.channel c = .fault ↔ st = .fault) := by
  rw [State.faultPassed, Bool.and_eq_true, bne_iff_ne, bne_iff_ne, ne_eq, ne_eq, Bool.eq_iff_iff, beq_iff_eq, beq_iff_eq]

/-- A channel event is recorded, reported where it passes into or out of FAULT, and evaluated. -/
theorem channelChanges_eq (s : State) (c : Nat) (st : ChannelState) : s.channelChanges c st =
    (if s.faultPassed c st then (s.recordChannel c st).emit ((s.recordChannel c st).faultEvent c) else s.recordChannel c st).evaluate := rfl

/-- Outside CONFIRMED and PRE-DISCHARGE a change of hold or isolate is evaluated (R119). -/
theorem judgeSwitches_evaluated {s : State} (h1 : s.fire.seq ≠ .confirmed) (h2 : s.fire.seq ≠ .preDischarge) :
    s.judgeSwitches = s.evaluate := by
  unfold State.judgeSwitches
  split
  · exact absurd ‹_› h1
  · exact absurd ‹_› h2
  · rfl

theorem exec_holdOrIsolateChange {s : State} (h : s.settled = true) (switch : Switch) (on : Bool) :
    exec (.holdOrIsolateChange switch on) s = .next (s.recordSwitch switch on).judgeSwitches :=
  taken_of_settled h fun t => (t.recordSwitch switch on).judgeSwitches

/-- An input recorded: the pins and the fire unit's record of the inputs may change, and nothing else does (R116, R118, R119). -/
def State.InputRecorded (s u : State) : Prop :=
  ∃ p channels operated latch hold isolate, u = { s with pins := p, fire := { s.fire with
    channels := channels, callOperated := operated, callLatch := latch, holdOn := hold, isolateOn := isolate } }

/-- The state in which an input is evaluated: recorded, and a passage into or out of FAULT reported (R117). -/
structure State.Evaluated (s u v : State) (c : Instr) : Prop where
  row : exec c s = .next v.evaluate
  recorded : s.InputRecorded u
  rest : v = u.withNotices v.notices
  length : v.notices.pending.length = s.notices.pending.length
  other : ∀ n, n ≠ 2 → v.pendingNotice n = s.pendingNotice n
  reported : ∀ ch st, c = .channelEvent ch st → s.group ch.val ≠ .unused → ¬(s.channel ch.val = .fault ↔ st = .fault) →
    s.notices.pending.length = 16 → s.records 2 = true → ∃ x, v.pendingNotice 2 = some x ∧ x.content =
      .detectorFault ch.val (s.group ch.val) (u.channel ch.val) (u.groupInService (s.group ch.val)).length
  unreported : (∀ ch st, c = .channelEvent ch st → s.group ch.val = .unused ∨ (s.channel ch.val = .fault ↔ st = .fault)) →
    v.pendingNotice 2 = s.pendingNotice 2

/-- An input that is no channel event is evaluated as recorded. -/
theorem evaluated_recorded {s u : State} {c : Instr} (hexec : exec c s = .next u.evaluate) (hu : s.InputRecorded u)
    (hc : ∀ ch st, c ≠ .channelEvent ch st) : s.Evaluated u u c := by
  have hnotices : u.notices = s.notices := by
    obtain ⟨_, _, _, _, _, _, rfl⟩ := hu
    rfl
  exact ⟨hexec, hu, rfl, by rw [hnotices], fun n _ => pendingNotice_congr n hnotices, fun ch st h => absurd h (hc ch st),
    fun _ => pendingNotice_congr 2 hnotices⟩

/-- A channel event is evaluated with its passage into or out of FAULT reported. -/
theorem evaluated_channelEvent {s : State} (h : s.settled = true) (ch : Fin 8) (st : ChannelState) :
    ∃ v, s.Evaluated (s.recordChannel ch.val st) v (.channelEvent ch st) := by
  have hexec : exec (.channelEvent ch st) s = .next (s.channelChanges ch.val st) :=
    taken_of_settled h fun t => t.channelChanges ch.val st
  rw [channelChanges_eq] at hexec
  obtain ⟨u, hu⟩ : ∃ u, u = s.recordChannel ch.val st := ⟨_, rfl⟩
  have hrecorded : s.InputRecorded u := ⟨_, _, _, _, _, _, hu⟩
  have hnotices : u.notices = s.notices := by rw [hu]; rfl
  have hrequest : u.request = s.request := by rw [hu]; rfl
  have hgroup : u.group ch.val = s.group ch.val := by rw [hu]; rfl
  rw [← hu] at hexec ⊢
  by_cases hpassed : s.faultPassed ch.val st = true
  · rw [if_pos hpassed] at hexec
    refine ⟨u.emit (u.faultEvent ch.val), hexec, hrecorded, emit_withNotices _ _, by rw [emit_length, hnotices], fun n hn => ?_, ?_, fun hno => ?_⟩
    · exact (emit_pendingNotice_other u (u.faultEvent ch.val) n hn).trans (pendingNotice_congr n hnotices)
    · rintro _ _ ⟨rfl, rfl⟩ _ _ h16 hr
      obtain ⟨x, hx, hc⟩ := emit_content u (u.faultEvent ch.val) (by rw [hnotices, h16]) (by rw [records_congr _ hrequest]; exact hr)
      exact ⟨x, hx, by rw [hc, State.faultEvent, hgroup]⟩
    · obtain ⟨hassigned, hpasses⟩ := (faultPassed_iff s ch.val st).1 hpassed
      exact ((hno ch st rfl).elim hassigned hpasses).elim
  · rw [if_neg hpassed] at hexec
    refine ⟨u, hexec, hrecorded, rfl, by rw [hnotices], fun n _ => pendingNotice_congr n hnotices, ?_,
      fun _ => pendingNotice_congr 2 hnotices⟩
    rintro _ _ ⟨rfl, rfl⟩ hassigned hpasses
    exact absurd ((faultPassed_iff s ch.val st).2 ⟨hassigned, hpasses⟩) hpassed

end Sys2Proof.Machine

namespace Sys2Proof.Machine

/-- A row whose input is evaluated (R116, R118, R119), with the state in which it is. -/
theorem exists_evaluated {s u : State} {c : Instr} (h : s.settled = true)
    (hc : (∃ ch st, c = .channelEvent ch st ∧ u = { s with
        pins := { s.pins with channels := s.pins.channels.set ch.val st },
        fire := { s.fire with channels := s.fire.channels.set ch.val st } }) ∨
      (c = .manualCallOperation ∧ u = { s with
        pins := { s.pins with callOperated := true },
        fire := { s.fire with callOperated := true, callLatch := true } }) ∨
      (∃ on, c = .holdOrIsolateChange .hold on ∧ s.fire.seq ≠ .confirmed ∧ s.fire.seq ≠ .preDischarge ∧
        u = { s with pins := { s.pins with holdOn := on }, fire := { s.fire with holdOn := on } }) ∨
      (∃ on, c = .holdOrIsolateChange .isolate on ∧ s.fire.seq ≠ .confirmed ∧ s.fire.seq ≠ .preDischarge ∧
        u = { s with pins := { s.pins with isolateOn := on }, fire := { s.fire with isolateOn := on } })) :
    ∃ v, s.Evaluated u v c := by
  obtain ⟨ch, st, rfl, rfl⟩ | ⟨rfl, rfl⟩ | ⟨on, rfl, h1, h2, rfl⟩ | ⟨on, rfl, h1, h2, rfl⟩ := hc
  · exact evaluated_channelEvent h ch st
  · exact ⟨_, evaluated_recorded (taken_of_settled h State.callOperated) ⟨_, _, _, _, _, _, rfl⟩ nofun⟩
  · exact ⟨_, evaluated_recorded ((exec_holdOrIsolateChange h .hold on).trans (congrArg _ (judgeSwitches_evaluated h1 h2)))
      ⟨_, _, _, _, _, _, rfl⟩ nofun⟩
  · exact ⟨_, evaluated_recorded ((exec_holdOrIsolateChange h .isolate on).trans (congrArg _ (judgeSwitches_evaluated h1 h2)))
      ⟨_, _, _, _, _, _, rfl⟩ nofun⟩

/-- An evaluation that enters confirmation stops the movement of the state that the input came to. -/
theorem State.Evaluated.stopped {s u v : State} {c : Instr} (hv : s.Evaluated u v c) (hlate : 3 ≤ seqCode u.evaluatedSeq)
    (hearly : seqCode s.fire.seq < 3) : s.MovementStopped v.evaluate := by
  obtain ⟨_, ⟨p, channels, operated, latch, hold, isolate, hu⟩, hrest, hlength, _⟩ := hv
  have hseq : v.evaluatedSeq = u.evaluatedSeq := by rw [hrest]; rfl
  have hfire : v.fire.seq = s.fire.seq := by rw [hrest, hu]; rfl
  have hne : v.evaluatedSeq ≠ v.fire.seq := fun hsame => by
    rw [← hseq, hsame, hfire] at hlate
    omega
  rcases evaluate_change rfl hne with ⟨hlt, _⟩ | ⟨_, hevaluate⟩
  · rw [hseq] at hlt
    omega
  · obtain ⟨e, he⟩ : ∃ e, e = v.enterSeq v.evaluatedSeq (v.evaluationCause v.evaluatedSeq) := ⟨_, rfl⟩
    have hframe := enterSeq_afterSequence v v.evaluatedSeq (v.evaluationCause v.evaluatedSeq)
    have hl : e.notices.pending.length = s.notices.pending.length := by rw [he, enterSeq_notices, emit_length, hlength]
    rw [hevaluate, ← he]
    rw [← he, hrest, hu] at hframe
    exact movementStopped_after hframe hl

/-- The changes of hold and isolate in CONFIRMED and PRE-DISCHARGE (R123). -/
theorem judgeSwitches_change {u : State} {next : Seq} {cause : FireCause}
    (h : u.fire.seq = .confirmed ∧ u.fire.holdOn = false ∧ u.fire.isolateOn = false ∧ next = .preDischarge ∧ cause = .released ∨
      u.fire.seq = .preDischarge ∧ (u.fire.holdOn = true ∨ u.fire.isolateOn = true) ∧ next = .confirmed ∧ cause = .held) :
    u.judgeSwitches = u.enterSeq next cause := by
  obtain ⟨hseq, hhold, hisolate, rfl, rfl⟩ | ⟨hseq, hon, rfl, rfl⟩ := h
  · simp only [State.judgeSwitches, hseq, hhold, hisolate, Bool.or_self, Bool.false_eq_true, if_false]
  · simp only [State.judgeSwitches, hseq, Bool.or_eq_true, hon, if_true]

/-- Hold or isolate ON in CONFIRMED, or both OFF in PRE-DISCHARGE, leaves the sequence state (R123). -/
theorem judgeSwitches_stays {u : State}
    (h : u.fire.seq = .confirmed ∧ (u.fire.holdOn = true ∨ u.fire.isolateOn = true) ∨
      u.fire.seq = .preDischarge ∧ u.fire.holdOn = false ∧ u.fire.isolateOn = false) : u.judgeSwitches = u := by
  obtain ⟨hseq, hon⟩ | ⟨hseq, hhold, hisolate⟩ := h
  · simp only [State.judgeSwitches, hseq, Bool.or_eq_true, hon, if_true]
  · simp only [State.judgeSwitches, hseq, hhold, hisolate, Bool.or_self, Bool.false_eq_true, if_false]

/-- The fire unit on entry to CONFIRMED or PRE-DISCHARGE: the countdown alone may run, from its full length (R123, R128). -/
theorem enterSeq_fire_confirmed (u : State) {q : Seq} (c : FireCause) (hq : q = .confirmed ∨ q = .preDischarge) :
    (u.enterSeq q c).fire = { u.fire with
      seq := q, release := false, pulse := none, soak := none,
      countdown := if q = .preDischarge then some (u.now + 1000 * u.cfg.preDischarge) else none,
      sounder := sounderFor q u.fire.generalSeen, damperClosed := damperFor q u.fire.neighbourAlert } := by
  rw [enterSeq_fire]
  obtain rfl | rfl := hq <;> rfl

/-- Settles O56: the conditions; the evaluation, by `evaluate_spec` and its companions, with what confirmation stops; and the switches. -/
theorem inputsEvaluateTheSequence : Obligations.InputsEvaluateTheSequence := by
  refine ⟨fun s => ⟨alertCondition_iff s, alarmCondition_iff s, fun serving hserving => ?_⟩,
    fun s h => ⟨fun c u q hq hc => ?_, fun switch on u hu => ?_⟩⟩
  · have hserves : serving = s.serves := by
      funext g c
      exact propext (hserving g c)
    rw [hserves]
    exact confirmationCondition_iff s
  · obtain ⟨v, hv⟩ := exists_evaluated h hc
    have hstopped := hv.stopped
    obtain ⟨hexec, ⟨p, channels, operated, latch, hold, isolate, hu⟩, hrest, hlength, hother, hreported, hunreported⟩ := hv
    rw [← hq] at hstopped
    have hseq : q = v.evaluatedSeq := by rw [hq, hrest]; rfl
    have hfire : v.fire.seq = s.fire.seq := by rw [hrest, hu]; rfl
    obtain ⟨hstate, hsame, hchanged, _⟩ := evaluate_spec v
    obtain ⟨hframe, hplain⟩ := evaluate_frame v
    obtain ⟨hchannels, hoperated, hlatch, hhold, hisolate⟩ := evaluate_inputs v
    rw [← hseq] at hstate hsame hchanged hplain
    rw [hfire] at hsame hchanged
    refine ⟨_, hexec, hstate, ?_, ?_, ?_, ?_, ?_, ?_, ?_, ?_, ?_, ?_, ?_, ?_⟩
    · rw [State.evaluate_pins, hrest]
      rfl
    · rw [hchannels, hrest]
      rfl
    · rw [hoperated, hrest]
      rfl
    · rw [hlatch, hrest]
      rfl
    · rw [hhold, hrest]
      rfl
    · rw [hisolate, hrest]
      rfl
    · generalize v.evaluate = t at hframe ⊢
      rw [hrest] at hframe
      exact hframe
    · generalize v.evaluate = t at hplain ⊢
      rw [hrest] at hplain
      exact hplain
    · intro hq
      rw [hsame hq]
      exact hrest
    · refine fun hne => ⟨(hchanged hne).trans ?_, (evaluate_climate (by rw [← hseq, hfire]; exact hne)).trans ?_⟩
      · rw [hrest, hu]
        rfl
      · generalize v.evaluate = t
        rw [hrest, hu]
        rfl
    · intro h16
      have hfault : v.evaluate.pendingNotice 2 = v.pendingNotice 2 := evaluate_pendingNotice_other v (by decide) (by decide) (by decide)
      have hrequest : v.request = s.request := by rw [hrest, hu]; rfl
      refine ⟨fun hq => ?_, fun hne hr => ?_, fun ch st hc hassigned hpasses hr => ?_, fun hno => hfault.trans (hunreported hno)⟩
      · rw [hsame hq]
        exact hother 0 (by decide)
      · obtain ⟨x, hx, hcontent⟩ := evaluate_fireState hseq (by rw [hfire]; exact hne) (hlength.trans h16)
          (by rw [records_congr 0 hrequest]; exact hr)
        refine ⟨x, hx, hcontent.trans ?_⟩
        rw [hrest, hu]
        rfl
      · rw [hfault]
        exact hreported ch st hc hassigned hpasses h16 hr
    · intro hlate hearly hcanonical
      have hmoved := hstopped hlate hearly
      have hsorted := (Bool.and_eq_true_iff.1 hcanonical).2
      refine ⟨hmoved.ended, hmoved.unbegun, fun hbegun hheld => ⟨hmoved.dock hbegun hheld, hmoved.manifest hbegun, fun id x p m hx hst => ?_,
        fun id x f hx hst => ?_, hmoved.report hbegun⟩, hmoved.transfer hsorted, fun e he x peer restore hoffered hx hst => ?_,
        fun id x hx h2 h4 h7 => ?_, fun id hx => ?_, hmoved.peerOut, hmoved.outcome⟩
      · rw [hmoved.find_some hx, stoppedRecord_loading hbegun hst]
      · rw [hmoved.find_some hx, stoppedRecord_returning hbegun hst]
      · exact hmoved.restored he hoffered hx hst
      · rw [hmoved.find_some hx, stoppedRecord_same h2 h4 h7]
      · rw [hmoved.find, hx, Option.map_none]
  · have hrow : exec (.holdOrIsolateChange switch on) s = .next u.judgeSwitches := by
      rw [exec_holdOrIsolateChange h, hu]
      cases switch <;> rfl
    have hseq : u.fire.seq = s.fire.seq := by
      rw [hu]
      cases switch <;> rfl
    obtain ⟨p, channels, operated, latch, hold, isolate, hrecorded⟩ : s.InputRecorded u := by
      rw [hu]
      cases switch <;> exact ⟨_, _, _, _, _, _, rfl⟩
    clear hu
    rw [← hseq, hrow]
    refine ⟨fun next cause hchange => ⟨_, congrArg _ (judgeSwitches_change hchange), enterSeq_afterSequence u next cause, ?_, ?_, ?_⟩,
      fun hs hon => ?_, fun hs hhold hisolate => ?_⟩
    · have hnext : next = .confirmed ∨ next = .preDischarge := hchange.symm.imp (fun h => h.2.2.1) fun h => h.2.2.2.1
      rw [enterSeq_fire_confirmed u cause hnext, hrecorded]
      rfl
    · rw [enterSeq_climate]
      generalize u.enterSeq next cause = t
      rw [hrecorded]
      rfl
    · rw [enterSeq_notices]
      have hclock : u.custody.zoneClock = s.custody.zoneClock := by rw [hrecorded]
      rw [hclock]
      exact emit_notices_congr _ _ _ (by rw [hrecorded]) (by rw [hrecorded]) hclock
    · rw [judgeSwitches_stays (.inl ⟨hs, hon⟩)]
    · rw [judgeSwitches_stays (.inr ⟨hs, hhold, hisolate⟩)]

end Sys2Proof.Machine

namespace Sys2Proof.Machine

/-! ### The rows of the rollover and of the completed hold -/

/-- The ROLLOVER row on an accumulator at 60 is the rollover (R88, log 1). -/
theorem rolloverStep_of_due {s : State} (h : 60 ≤ s.conditioning.accumulator) : s.rolloverStep = s.rolledOver := by
  rw [State.rolloverStep, if_pos (show rolloverSeconds ≤ s.conditioning.accumulator from h), rollover_eq_rolledOver]

/-- Short of 60 the ROLLOVER row does nothing (log 1). -/
theorem rolloverStep_of_not_due {s : State} (h : s.conditioning.accumulator < 60) : s.rolloverStep = s :=
  if_neg (Nat.not_le.2 h)

theorem holdWithin_zero_iff (r : Record) : r.holdWithin 0 = true ↔ ∃ p, r.st = .conditioning p 0 := by
  rcases r with ⟨_, st, _, _, _⟩
  cases st <;> simp [Record.holdWithin]

/-- CONDITIONING COMPLETE goes to the first record with its hold spent (R89). -/
theorem completeStep_of_first {s : State} {pre post : List Record} {r : Record} (hregister : s.custody.register = pre ++ r :: post)
    (hspent : r.holdWithin 0 = true) (hfirst : ∀ x ∈ pre, ¬x.holdWithin 0 = true) : s.completeStep = s.completeHold r := by
  rw [State.completeStep, hregister, List.filter_append, List.filter_eq_nil_iff.2 hfirst, List.nil_append, List.filter_cons_of_pos hspent]

/-- A released record takes its place in the register, by the order of identifiers (R3, R89). -/
theorem completeHold_eq {s : State} {pre post : List Record} {r : Record} {p : Option Position} {h : Nat} (hcanonical : s.canonical = true)
    (hregister : s.custody.register = pre ++ r :: post) (hst : r.st = .conditioning p h) :
    s.completeHold r = ({ s with custody := { s.custody with
      register := pre ++ { r with st := .shelved p, stateMinute := s.minute } :: post } } : State).emit
        (.conditioningComplete r.id p r.exposure s.minute) := by
  have hposition : r.st.position = p := by rw [hst]; rfl
  have hsorted : sortedBy Record.id (pre ++ r :: post) = true := hregister ▸ (Bool.and_eq_true_iff.1 hcanonical).1
  have hput : putBy Record.id (r.enter (.shelved p) s.minute) s.custody.register = pre ++ r.enter (.shelved p) s.minute :: post := by
    rw [hregister]
    exact putBy_replace Record.id hsorted rfl
  rw [State.completeHold, State.completeEvent, hposition, State.putRecord, hput]
  rfl

/-- Settles O10: the two rows by what is due; the record completed is the first of those with no hold left. -/
theorem rolloverLowersAndReleasesHolds : Obligations.RolloverLowersAndReleasesHolds := by
  refine ⟨fun s hdue => ?_, fun s hshort => ?_, fun s pre post r p hcanonical hregister hst hfirst => ?_⟩
  · exact congrArg _ (rolloverStep_of_due hdue)
  · exact congrArg _ (rolloverStep_of_not_due hshort)
  · have hspent : r.holdWithin 0 = true := (holdWithin_zero_iff r).2 ⟨p, hst⟩
    have hnone : ∀ x ∈ pre, ¬x.holdWithin 0 = true := fun x hx hwithin =>
      let ⟨q, hq⟩ := (holdWithin_zero_iff x).1 hwithin
      hfirst x hx q hq
    exact congrArg _ ((completeStep_of_first hregister hspent hnone).trans (completeHold_eq hcanonical hregister hst))

end Sys2Proof.Machine

namespace Sys2Proof.Machine

/-! ### The settling of an entry -/

theorem coveredExposure_concat (c : ConfigRecord) (summary : List Interval) (x : Interval) :
    coveredExposure c (summary ++ [x]) = saturate (coveredExposure c summary + saturate (weight c x.rh x.temperature * x.minutes)) := by
  rw [coveredExposure, List.foldl_concat]
  rfl

/-- The covered exposure holds at the saturation, interval by interval (R80). -/
theorem coveredExposure_le (c : ConfigRecord) (summary : List Interval) : coveredExposure c summary ≤ 16777215 := by
  induction summary using List.reverseRecOn with
  | nil => exact Nat.zero_le _
  | append_singleton summary x _ =>
    rw [coveredExposure_concat]
    exact saturate_le _

/-- The covered exposure with weights and saturations written out (R78 to R80). -/
theorem coveredExposure_eq (c : ConfigRecord) (summary : List Interval) : coveredExposure c summary =
    summary.foldl (fun (total : Nat) (x : Interval) => min 16777215 (total + min 16777215
      ((((x.rh : Int) - c.rhSet).natAbs - c.rhBand + 2 * ((x.temperature - c.tempSet).natAbs - c.tempBand)) * x.minutes))) 0 := by
  simp only [coveredExposure, saturate, pointsTop, weight, excess, Nat.min_comm 16777215]

/-- The exposure of an entry whose record left at a known minute (R81 to R83). -/
theorem exposureFor_departed (c : ConfigRecord) (i : CaseIdentity) (minute : Nat) (f : CaseField) :
    exposureFor c i.summary (outMinutes i minute (some f)) = min 16777215 (coveredExposure c i.summary +
      min 16777215 (c.uncovered * (minute - f.departureMinute - (i.summary.map (·.minutes)).sum))) := by
  simp only [exposureFor, outMinutes, coveredMinutes, saturate, pointsTop, Nat.min_comm 16777215]

/-- An UNREGISTERED entry has no uncovered minutes (R81): its exposure is the covered exposure. -/
theorem exposureFor_unregistered (c : ConfigRecord) (i : CaseIdentity) (minute : Nat) :
    exposureFor c i.summary (outMinutes i minute none) = coveredExposure c i.summary := by
  have huncovered : outMinutes i minute none - coveredMinutes i.summary = 0 := Nat.sub_self _
  rw [exposureFor, huncovered, Nat.mul_zero]
  exact Nat.min_eq_left (coveredExposure_le c i.summary)

/-- The smallest whole number not less than `e` divided by `k` is the quotient rounded up. -/
theorem roundedUp_eq {e k up : Nat} (hup : e ≤ up * k) (hleast : ∀ n, e ≤ n * k → up ≤ n) : (e + k - 1) / k = up := by
  rcases Nat.eq_zero_or_pos k with rfl | hk
  · rw [Nat.div_zero]
    exact (Nat.le_zero.1 (hleast 0 hup)).symm
  · have hquotient (n : Nat) : (e + k - 1) / k ≤ n ↔ e ≤ n * k := by
      rw [← Nat.ceilDiv_eq_add_pred_div, ceilDiv_le_iff_le_mul hk, Nat.mul_comm]
    exact le_antisymm ((hquotient up).2 hup) (hleast _ ((hquotient _).1 le_rfl))

/-- The hold by the smallest whole number not less than the exposure divided by K (R84). -/
theorem holdFor_eq {c : ConfigRecord} {e up : Nat} (hup : e ≤ up * c.divisor) (hleast : ∀ n, e ≤ n * c.divisor → up ≤ n) :
    holdFor c e = min (c.baseHold + up) c.ceiling := by
  rw [holdFor, roundedUp_eq hup hleast]

theorem advisedOf_eq (h : Nat) : advisedOf h = if h = 0 then none else some h := by
  cases h <;> rfl

/-- The class of an entry with a record, the first condition that holds (R85). -/
theorem classify_record (c : ConfigRecord) (i : CaseIdentity) (mismatch : Bool) (f : CaseField) (e : Nat) :
    classify c i (.record mismatch) (some f) e =
      if f.departureCount ≠ i.count then .suspect none (advisedOf (holdFor c e)) .countMismatch
      else if mismatch then .suspect none (advisedOf (holdFor c e)) .custodyMismatch
      else if c.exposureLimit ≠ 0 ∧ c.exposureLimit ≤ e then .suspect none (advisedOf (holdFor c e)) .exposure
      else if holdFor c e = 0 then .shelved none else .conditioning none (holdFor c e) := by
  cases hhold : holdFor c e <;> simp [classify, hhold, Nat.pos_iff_ne_zero]

/-- Settles O52: exposure, hold and advised hold by their formulas, then the class in the order of R85. -/
theorem settlingClassifiesByExposureAndCount : Obligations.SettlingClassifiesByExposureAndCount := by
  intro c i minute id covered e up h advised hcovered hup hh hadvised
  have hhold : holdFor c e = h := (holdFor_eq hup.1 hup.2).trans hh.symm
  have hadvise : advisedOf h = advised := (advisedOf_eq h).trans hadvised.symm
  rw [← coveredExposure_eq] at hcovered
  refine ⟨fun mismatch f he => ?_, fun he => ?_⟩
  · have hexposure : exposureFor c i.summary (outMinutes i minute (some f)) = e := by rw [exposureFor_departed, ← hcovered, he]
    simp only [settleEntry, hexposure, classify_record, hhold, hadvise]
  · have hexposure : exposureFor c i.summary (outMinutes i minute none) = e := by rw [exposureFor_unregistered, ← hcovered, he]
    simp only [settleEntry, hexposure, classify, hhold, hadvise]

end Sys2Proof.Machine

namespace Sys2Proof.Machine

/-! ### The timers of the sequence (R124 to R126, R130) -/

/-- A forcing condition is read from the request unit, the climate unit and the fire unit alone (R107). -/
theorem forcing_congr {s t : State} (hr : s.request = t.request) (hc : s.climate = t.climate) (hf : s.fire = t.fire) :
    s.forcing = t.forcing := by
  rw [State.forcing, State.forcing, State.configured, State.configured, hr, hc, hf]

/-- Events that follow a change of the sequence state leave the fire unit and the climate unit as the change left them. -/
theorem enterSeq_emitAll (s : State) (q : Seq) (c : FireCause) (events : List Event) :
    (s.enterSeq q c).emitAll events = s.afterSequence ((s.enterSeq q c).emitAll events) ∧
      ((s.enterSeq q c).emitAll events).fire = (s.enterSeq q c).fire ∧
      ((s.enterSeq q c).emitAll events).climate = s.climateForcedIn ((s.enterSeq q c).emitAll events) := by
  have hframe := enterSeq_afterSequence s q c
  have hclimate := enterSeq_climate s q c
  rw [emitAll_withNotices]
  generalize s.enterSeq q c = t at *
  generalize (t.emitAll events).notices = n
  refine ⟨?_, rfl, hclimate⟩
  conv_lhs => rw [hframe]
  rfl

/-- The fire unit on entry to DISCHARGE, SOAK or RESET-WAIT (R124 to R126, R128, R133, R134). -/
theorem enterSeq_fire_late (s : State) {q : Seq} (c : FireCause) (hq : q = .discharge ∨ q = .soak ∨ q = .resetWait) :
    (s.enterSeq q c).fire = { s.fire with
      seq := q, countdown := none,
      pulse := if q = .discharge then some (s.now + 10000) else none,
      soak := if q = .soak then some (s.now + 1000 * s.cfg.soakTime) else none,
      release := decide (q = .discharge),
      sounder := if q = .resetWait then .off else .evacuate,
      damperClosed := true } := by
  rw [enterSeq_fire]
  obtain rfl | rfl | rfl := hq <;> rfl

/-- An expiry in the state its timer runs in: the state it enters, and the RELEASE OUTCOME that only the countdown's
adds (R124 to R126, R130). -/
theorem exec_timer {s : State} {c : Instr} {next : Seq} {cause : FireCause} (h : s.settled = true)
    (hc : c = .countdownExpiry ∧ s.fire.seq = .preDischarge ∧ next = (if s.fire.agentReady then .discharge else .soak) ∧
        cause = .countdownExpiry ∨
      c = .pulseEnd ∧ s.fire.seq = .discharge ∧ next = .soak ∧ cause = .pulseEnd ∨
      c = .soakExpiry ∧ s.fire.seq = .soak ∧ next = .resetWait ∧ cause = .soakExpiry) :
    (next = .discharge ∨ next = .soak ∨ next = .resetWait) ∧
      exec c s = .next ((s.enterSeq next cause).emitAll
        (if c = .countdownExpiry then [s.releaseEvent s.fire.agentReady] else [])) := by
  obtain ⟨rfl, hseq, rfl, rfl⟩ | ⟨rfl, hseq, rfl, rfl⟩ | ⟨rfl, hseq, rfl, rfl⟩ := hc
  · refine ⟨by cases s.fire.agentReady <;> simp, (taken_of_settled h State.countdownExpires).trans ?_⟩
    simp only [State.countdownExpires, hseq]
    rfl
  · refine ⟨by simp, (taken_of_settled h State.pulseEnds).trans ?_⟩
    simp only [State.pulseEnds, hseq]
    rfl
  · refine ⟨by simp, (taken_of_settled h State.soakEnds).trans ?_⟩
    simp only [State.soakEnds, hseq]
    rfl

/-- The FIRE STATE event of a change of the sequence state stands in its notice, under events of other sources (R129). -/
theorem enterSeq_emitAll_fireState {s : State} (q : Seq) (c : FireCause) {events : List Event} (hevents : ∀ e ∈ events, 0 ≠ e.source)
    (hl : s.notices.pending.length = 16) (hr : s.records 0 = true) : ∃ x, ((s.enterSeq q c).emitAll events).pendingNotice 0 = some x ∧
      x.content = .fireState q s.fire.seq c s.alarmChannels s.faultChannels s.fire.callOperated s.fire.callLatch s.fire.holdOn
        s.fire.isolateOn s.fire.doorOpen s.fire.agentReady s.custody.zoneClock := by
  rw [emitAll_pendingNotice_other _ _ _ hevents, pendingNotice_congr 0 (enterSeq_notices s q c)]
  exact emit_content s (.fireState q s.fire.seq c s.alarmChannels s.faultChannels s.fire.callOperated s.fire.callLatch s.fire.holdOn
    s.fire.isolateOn s.fire.doorOpen s.fire.agentReady s.custody.zoneClock) hl hr

/-- An event after a change of the sequence state stands in its notice. -/
theorem enterSeq_emit_content {s : State} (q : Seq) (c : FireCause) (e : Event) (hl : s.notices.pending.length = 16)
    (hr : s.records e.source = true) : ∃ x, ((s.enterSeq q c).emitAll [e]).pendingNotice e.source = some x ∧ x.content = e :=
  emitAll_last [] _ e (by rw [enterSeq_notices, emit_length, hl])
    (by rw [records_congr e.source (State.enterSeq_request s q c)]; exact hr)

/-- Settles O57: each expiry is a change of the sequence state, the countdown's with its RELEASE OUTCOME after it; elsewhere its row
leaves the state. -/
theorem timersRunTheReleaseSequence : Obligations.TimersRunTheReleaseSequence := by
  refine fun s h => ⟨fun c next cause hc => ?_, fun hseq => ?_, fun hseq => ?_, fun hseq => ?_⟩
  · obtain ⟨hnext, hexec⟩ := exec_timer h hc
    obtain ⟨hframe, hfire, hclimate⟩ := enterSeq_emitAll s next cause
      (if c = .countdownExpiry then [s.releaseEvent s.fire.agentReady] else [])
    refine ⟨_, hexec, hframe, hfire.trans (enterSeq_fire_late s cause hnext), hclimate, fun hl hr => ?_, fun hl hr hcount => ?_⟩
    · refine enterSeq_emitAll_fireState next cause (fun e he => ?_) hl hr
      split at he
      · rw [List.mem_singleton.1 he]
        exact Nat.zero_ne_one
      · cases he
    · rw [if_pos hcount]
      exact enterSeq_emit_content next cause (s.releaseEvent s.fire.agentReady) hl hr
  · refine (taken_of_settled h State.countdownExpires).trans (congrArg _ ?_)
    unfold State.countdownExpires
    split
    · exact absurd ‹_› hseq
    · rfl
  · refine (taken_of_settled h State.pulseEnds).trans (congrArg _ ?_)
    unfold State.pulseEnds
    split
    · exact absurd ‹_› hseq
    · rfl
  · refine (taken_of_settled h State.soakEnds).trans (congrArg _ ?_)
    unfold State.soakEnds
    split
    · exact absurd ‹_› hseq
    · rfl

end Sys2Proof.Machine

namespace Sys2Proof.Machine

/-! ### The neighbour-alert flag judged on a new peer table (R136, R137) -/

/-- The judgement of the flag once a peer's entry has changed and the change may have been reported: what it does, said from the
state before both. -/
theorem judgeNeighbours_reported (s : State) (l : LineUnit) (n : NoticeUnit) {t : State}
    (ht : t = ({ s with line := l, notices := n } : State).judgeNeighbours) :
    t = ({ s with line := l } : State).afterFlag t ∧ t.fire.neighbourAlert = !t.alertHolders.isEmpty ∧
      (t.fire.neighbourAlert = s.fire.neighbourAlert → t.fire = s.fire ∧ t.climate = s.climate ∧ t.notices = n) ∧
      (t.fire.neighbourAlert ≠ s.fire.neighbourAlert →
        t.notices = ((s.withNotices n).emit (.neighbourAlarm t.fire.neighbourAlert t.alertHolders s.custody.zoneClock)).notices ∧
        t.fire = { s.fire with
          neighbourAlert := t.fire.neighbourAlert, sounder := sounderFor s.fire.seq s.fire.generalSeen,
          damperClosed := damperFor s.fire.seq t.fire.neighbourAlert } ∧
        t.climate = s.climateForcedIn t) := by
  obtain ⟨hframe, hflag, hsame, _⟩ := judgeNeighbours_spec { s with line := l, notices := n }
  have hchanged := judgeNeighbours_changed { s with line := l, notices := n }
  rw [← ht] at hframe hflag hsame hchanged
  refine ⟨hframe, hflag, fun h => ?_, fun h => ?_⟩
  · rw [hsame h]
    exact ⟨rfl, rfl, rfl⟩
  · obtain ⟨hnotices, hfire, hclimate⟩ := hchanged h
    exact ⟨hnotices.trans (emit_notices_congr _ _ _ rfl rfl rfl), hfire, hclimate⟩

/-- An event emitted on a new line unit is the event emitted before it. -/
theorem emit_newLine (s : State) (l : LineUnit) (e : Event) :
    ({ s with line := l } : State).emit e = { s with line := l, notices := (s.emit e).notices } :=
  (emit_withNotices _ e).trans (congrArg ({ s with line := l } : State).withNotices (emit_notices_congr _ s e rfl rfl rfl))

/-- A peer found gone is marked, reported where it was PRESENT, and the flag judged (R172). -/
theorem makeAbsent_eq {s : State} {a : Nat} {p : PeerEntry} (hp : s.peer a = some p) (hgone : p.gone = true)
    (hown : a ≠ s.line.address) : s.makeAbsent a = ({ s with
      line := { s.line with peers := s.line.peers.set a { p with presence := .absent } },
      notices := (if p.presence = .present then s.emit (.peerPresence a .absent none) else s).notices } : State).judgeNeighbours := by
  have hjudged : (p.gone && a != s.line.address) = true := by rw [hgone, Bool.true_and, bne_iff_ne]; exact hown
  simp only [State.makeAbsent, hp, hjudged, if_true]
  congr 1
  split
  · exact emit_newLine s _ _
  · rfl

/-- Settles O29: the row is `makeAbsent_eq`, and the rest is the judgement of the flag. -/
theorem peerGoneBecomesAbsent : Obligations.PeerGoneBecomesAbsent := by
  intro s a p hp hmissed hpresence hown
  have hgone : p.gone = true := by
    rw [PeerEntry.gone, Bool.and_eq_true, decide_eq_true_iff, bne_iff_ne]
    exact ⟨hmissed, hpresence⟩
  obtain ⟨u, hu⟩ : ∃ u, u = (if p.presence = .present then s.emit (.peerPresence a.val .absent none) else s) := ⟨_, rfl⟩
  have hut : s.withNotices u.notices = u := by
    rw [hu]
    split
    · exact (emit_withNotices s _).symm
    · rfl
  have heq := makeAbsent_eq hp hgone hown
  rw [← hu] at heq
  obtain ⟨hframe, hflag, hsame, hchanged⟩ := judgeNeighbours_reported s _ _ heq
  rw [hut] at hchanged
  exact ⟨_, u, rfl, hu, hframe, hflag, hsame, hchanged⟩

end Sys2Proof.Machine

namespace Sys2Proof.Machine

/-! ### Beacons -/

/-- A message of a kind heard in another's slot by an aligned station is judged as such (R167). -/
theorem hearSlot_other {s : State} {slot : Nat} (kind : Byte) (f : SlotFrame) (haligned : s.line.aligned = true)
    (hown : slot ≠ s.line.address) : s.hearSlot slot kind f = s.hearOther slot kind f := by
  rw [State.hearSlot, if_pos haligned, if_neg hown]

/-- A beacon heard in another's slot: malformed, it is not judged; well formed, it is stored whatever its destination (R167, R172). -/
theorem hearOther_beacon (s : State) (slot : Nat) (f : SlotFrame) :
    (frameOk 1 f = false → s.hearOther slot 1 f = s.drive .neither) ∧
      ∀ b, frameOk 1 f = true → beaconOf f.payload = some b → s.hearOther slot 1 f = (s.drive .neither).hearBeacon slot b := by
  refine ⟨fun h => ?_, fun b h hb => ?_⟩
  · rw [State.hearOther, h]
    rfl
  · rw [State.hearOther, if_pos h, hb]
    rfl

/-- The line unit once a beacon of a peer is stored; nothing is driven in its slot (R167, R172). -/
def State.beaconStored (s : State) (slot : Nat) (p : PeerEntry) (b : Beacon) : LineUnit :=
  { s.line with
    acceptance := .neither,
    peers := s.line.peers.set slot { p with presence := .present, missed := 0, heard := true, beacon := some b } }

/-- A beacon of a peer is stored; on its entry to PRESENT it is reported and the flag judged (R172). -/
theorem hearBeacon_eq {s : State} {slot : Nat} {p : PeerEntry} (b : Beacon) (hp : s.line.peers[slot]? = some p) :
    (s.drive .neither).hearBeacon slot b =
      if p.presence = .present then { s with line := s.beaconStored slot p b }
      else ({ s with
        line := s.beaconStored slot p b,
        notices := (s.emit (.peerPresence slot .present (some (b.configured, b.fire)))).notices } : State).judgeNeighbours := by
  have hpeer : (s.drive .neither).peer slot = some p := hp
  simp only [State.hearBeacon, hpeer]
  split
  · rfl
  · exact congrArg _ (emit_newLine s (s.beaconStored slot p b) _)

/-- Settles O31: the beacon is stored by `hearBeacon_eq`; on entry to PRESENT the rest is the judgement of the flag. -/
theorem beaconMakesPeerPresent : Obligations.BeaconMakesPeerPresent := by
  intro s slot f p h haligned hown hp
  have hexec : exec (.beaconReceived slot f) s = .next (s.hearOther slot.val 1 f) :=
    (taken_of_settled h fun t => t.hearSlot slot.val 1 f).trans (congrArg _ (hearSlot_other 1 f haligned hown))
  obtain ⟨hmalformed, hheard⟩ := hearOther_beacon s slot.val f
  refine ⟨fun hf => hexec.trans (congrArg _ (hmalformed hf)), fun b u hf hb hu => ⟨_, hexec, ?_⟩⟩
  have heq := (hheard b hf hb).trans (hearBeacon_eq b hp)
  by_cases hpresent : p.presence = .present
  · rw [if_pos hpresent] at heq
    rw [heq]
    exact ⟨rfl, fun _ => ⟨rfl, rfl, rfl⟩, fun hno => absurd hpresent hno⟩
  · rw [if_neg hpresent, ← hu] at heq
    obtain ⟨hframe, hflag, hsame, hchanged⟩ := judgeNeighbours_reported s _ _ heq
    have hreported : s.withNotices u.notices = u := by rw [hu]; exact (emit_withNotices s _).symm
    rw [hreported] at hchanged
    exact ⟨hframe, fun hyes => absurd hyes hpresent, fun _ => ⟨hflag, hsame, hchanged⟩⟩

end Sys2Proof.Machine

namespace Sys2Proof.Machine

/-! ### The alarm field (R135, R165) -/

/-- The confirmed bit is driven from CONFIRMED to SOAK. -/
theorem isConfirmed_iff (q : Seq) : q.isConfirmed = true ↔ 3 ≤ seqCode q ∧ seqCode q ≤ 6 := by
  rw [Seq.isConfirmed, Bool.and_eq_true, decide_eq_true_iff, decide_eq_true_iff]

/-- A field driven where a condition holds has its one bit there. -/
theorem getLsbD_drivenBit {n place : Nat} (hn : n < 33) (b : Bool) :
    (if b then BitVec.twoPow 33 place else 0).getLsbD n = (b && decide (n = place)) := by
  cases b
  · simp
  · simp [hn]

/-- The places of the alarm field that a station drives (R135). -/
theorem alarmBits_getLsbD (s : State) {n : Nat} (hn : n < 33) : s.alarmBits.getLsbD n =
    decide (n = 2 * s.line.address ∧ 2 ≤ seqCode s.fire.seq ∨
      (n = 2 * s.line.address + 1 ∨ n = 32) ∧ 3 ≤ seqCode s.fire.seq ∧ seqCode s.fire.seq ≤ 6) := by
  simp only [State.alarmBits, BitVec.getLsbD_or, getLsbD_drivenBit hn]
  rw [Bool.eq_iff_iff]
  simp only [Bool.or_eq_true, Bool.and_eq_true, decide_eq_true_iff, inAlarm_iff, isConfirmed_iff]
  grind

/-- The pairs of the field recorded, entry by entry: every other station's, the own one as it was (R165). -/
theorem recordPairs_getElem? (field : BitVec 33) (own base : Nat) {l : List PeerEntry} {i : Nat} {p : PeerEntry} (h : l[i]? = some p) :
    (recordPairs field own base l)[i]? = some (if base + i = own then p else
      { p with alarm := field.getLsbD (2 * (base + i)), confirmed := field.getLsbD (2 * (base + i) + 1) }) := by
  induction l generalizing base i with
  | nil => cases h
  | cons q l ih =>
    cases i with
    | zero =>
      cases h
      rfl
    | succ i =>
      rw [show base + (i + 1) = base + 1 + i by omega]
      exact ih (base + 1) h

/-- The state in which an alarm field leaves the flag to be judged: the own bits driven, the pairs and the general alarm recorded, the
sounder and the damper by their tables (R133, R134, R165). -/
def State.fieldRecorded (s : State) (others : BitVec 33) : State :=
  { s with
    line := { s.line with
      alarmDriven := s.alarmBits, peers := recordPairs (others ||| s.alarmBits) s.line.address 0 s.line.peers },
    fire := { s.fire with
      generalSeen := (others ||| s.alarmBits).getLsbD 32,
      sounder := sounderFor s.fire.seq ((others ||| s.alarmBits).getLsbD 32),
      damperClosed := damperFor s.fire.seq s.fire.neighbourAlert } }

theorem exec_alarmField {s : State} (h : s.settled = true) (others : BitVec 33) : exec (.alarmField others) s =
    .next (if s.line.aligned then (s.fieldRecorded others).judgeNeighbours else s) :=
  taken_of_settled h fun t => t.alarmFieldRead others

/-- Settles O30: the bits driven by `alarmBits_getLsbD`, the pairs recorded by `recordPairs_getElem?`, then the judgement of the flag. -/
theorem alarmFieldIsDrivenAndRecorded : Obligations.AlarmFieldIsDrivenAndRecorded := by
  intro s others h
  rw [exec_alarmField h]
  refine ⟨fun hno => by rw [hno]; rfl, fun haligned => ?_⟩
  rw [if_pos haligned]
  obtain ⟨hframe, hflag, hsame, hseq, hgeneral, hsounder, hdamper⟩ := judgeNeighbours_spec (s.fieldRecorded others)
  have hchanged := judgeNeighbours_changed (s.fieldRecorded others)
  have hline := State.judgeNeighbours_line (s.fieldRecorded others)
  refine ⟨_, rfl, ?_⟩
  generalize (s.fieldRecorded others).judgeNeighbours = t at *
  have hdriven : t.line.alarmDriven = s.alarmBits := congrArg LineUnit.alarmDriven hline
  have hpeers : t.line.peers = recordPairs (others ||| s.alarmBits) s.line.address 0 s.line.peers := congrArg LineUnit.peers hline
  have hsounder := hsounder rfl
  have hdamper := hdamper rfl
  rw [← hseq] at hsounder hdamper
  rw [← hgeneral] at hsounder
  refine ⟨?_, fun n hn _ => ?_, fun a p hp => ?_, ?_, hflag, hseq, hsounder, hdamper, fun hc => ?_, fun hc => ?_⟩
  · rw [hdriven, hpeers, hgeneral]
    exact hframe
  · rw [hdriven]
    exact alarmBits_getLsbD s hn
  · rw [hpeers, hdriven, recordPairs_getElem? _ _ _ hp, Nat.zero_add]
  · rw [hdriven]
    exact hgeneral
  · rw [hsame hc]
    exact ⟨rfl, rfl⟩
  · obtain ⟨hnotices, _, hclimate⟩ := hchanged hc
    exact ⟨hnotices.trans (emit_notices_congr _ _ _ rfl rfl rfl), hclimate⟩

end Sys2Proof.Machine

namespace Sys2Proof.Machine

/-! ### Probe exchanges (R98 to R101) -/

/-- A valid answer names the probe that was asked. -/
theorem answeringProbe_of_reading {k : Nat} {bytes : List Byte} {r : Reading} (h : probeReading k bytes = some r) :
    answeringProbe bytes = some k := by
  unfold probeReading at h
  split at h
  · obtain ⟨hlength, hcheck, hnamed, _⟩ := ‹_ ∧ _›
    rw [answeringProbe, if_pos ⟨hlength, hcheck⟩, hnamed]
  · cases h

/-- A miss of a FAILED probe leaves its record (R100). -/
theorem miss_failed {p : ProbeRecord} (roundStart : Nat) (h : p.state = .failed) : p.miss roundStart = p := by
  rw [ProbeRecord.miss, h]

/-- A miss of another probe makes it STALE while its reading is fresh enough, and FAILED with the reading discarded after that (R100). -/
theorem miss_usable {p : ProbeRecord} (roundStart : Nat) (h : p.state ≠ .failed) : p.miss roundStart =
    if roundStart - p.stamp ≤ 30 then { p with state := .stale } else { p with state := .failed, reading := none } := by
  unfold ProbeRecord.miss
  split
  · exact absurd ‹_› h
  · rfl

/-- What the table of R100 gives is the miss. -/
theorem miss_of_missed {p after : ProbeRecord} {roundStart : Nat} (h : p.missed roundStart after) : p.miss roundStart = after := by
  obtain ⟨hfailed, hstale, hfails⟩ := h
  by_cases hstate : p.state = .failed
  · rw [miss_failed _ hstate, hfailed hstate]
  · rw [miss_usable _ hstate]
    split
    · exact (hstale hstate ‹_›).symm
    · exact (hfails hstate (Nat.lt_of_not_le ‹_›)).symm

/-- A valid reading is reported where it takes the probe out of FAILED, but for the first since a reset (R101). -/
theorem probeEvent_hear (k roundStart : Nat) (p : ProbeRecord) (r : Reading) : probeEvent k p (.hear roundStart r) =
    if p.state = .failed ∧ p.heard = true then [.probe k .valid r] else [] := by
  obtain ⟨state, _, _, heard⟩ := p
  cases state
  · rfl
  · rfl
  · cases heard <;> rfl

/-- A record that a FAILED probe keeps is not reported (R101). -/
theorem probeEvent_failed {k : Nat} {p : ProbeRecord} (h : p.state = .failed) : probeEvent k p p = [] := by
  obtain ⟨_, _, _, _⟩ := p
  cases h
  rfl

/-- A probe that becomes STALE is not reported (R101). -/
theorem probeEvent_stale {k : Nat} {p : ProbeRecord} (h : p.state ≠ .failed) : probeEvent k p { p with state := .stale } = [] := by
  obtain ⟨state, _, _, _⟩ := p
  cases state
  · rfl
  · rfl
  · exact absurd rfl h

/-- A probe that becomes FAILED is reported with the reading discarded (R101). -/
theorem probeEvent_fails {k : Nat} {p : ProbeRecord} {r : Reading} (h : p.state ≠ .failed) (hr : p.reading = some r) :
    probeEvent k p { p with state := .failed, reading := none } = [.probe k .failed r] := by
  obtain ⟨state, _, _, _⟩ := p
  cases hr
  cases state
  · rfl
  · rfl
  · exact absurd rfl h

/-- The events of an exchange are on the source PROBE. -/
theorem probeEvent_source (k : Nat) (before after : ProbeRecord) : ∀ e ∈ probeEvent k before after, e.source = 13 := by
  unfold probeEvent
  (repeat' split) <;> simp [Event.source]

/-- A list with an entry put where it stands. -/
theorem set_of_getElem? {α : Type} {l : List α} {i : Nat} {x : α} (h : l[i]? = some x) : l.set i x = l := by
  obtain ⟨hi, rfl⟩ := List.getElem?_eq_some_iff.1 h
  exact List.set_getElem_self hi

/-- The end of an exchange with a polled probe: its record judged, its event held, and the next probe asked or the round ended. -/
theorem endProbe_eq {s : State} {k at0 : Nat} {held : List Event} {p : ProbeRecord} (answer : Option Reading)
    (hp : s.climate.probes[k - 1]? = some p) (hk : 1 ≤ k) (hpolled : s.polled k = true) :
    s.endProbe ⟨k, at0, held⟩ answer =
      ({ s with climate := { s.climate with
          probes := s.climate.probes.set (k - 1) (p.judged s.climate.roundStart answer) } } : State).nextProbe k
        (held ++ probeEvent k p (p.judged s.climate.roundStart answer)) := by
  have hprobe : s.probe k = some p := (entryAt_one _ _ hk).trans hp
  rw [endProbe_polled (round := ⟨k, at0, held⟩) answer hpolled hprobe, State.setProbe, setEntry_one hk]
  rfl

/-- The row of a probe's answer is discarded with no round in progress, or where it comes late (R98, R114). -/
theorem exec_probeAnswer_discarded {s : State} (h : s.settled = true) (bytes : List Byte)
    (hlate : ∀ round, s.climate.round = some round → s.answersLate round bytes = true) : exec (.probeAnswer bytes) s = .next s :=
  (taken_of_settled h fun t => t.hearProbe bytes).trans (congrArg _ (hearProbe_discarded s bytes hlate))

/-- An answer in time that names no probe whose own exchange went unanswered ends the asked probe's exchange (R99). -/
theorem exec_probeAnswer_taken {s : State} {k at0 : Nat} {held : List Event} (h : s.settled = true)
    (hround : s.climate.round = some ⟨k, at0, held⟩) {bytes : List Byte} (hnow : s.now ≤ at0 + 200)
    (hnamed : ∀ j, answeringProbe bytes = some j → j = k ∨ j ∉ s.climate.late) :
    exec (.probeAnswer bytes) s = .next (s.endProbe ⟨k, at0, held⟩ (probeReading k bytes)) := by
  have hintime : ¬ s.answersLate ⟨k, at0, held⟩ bytes = true := by
    rw [answersLate_iff]
    rintro (hlate | ⟨j, hj, hother, hin⟩)
    · exact absurd hnow (Nat.not_le.2 hlate)
    · exact (hnamed j hj).elim hother fun hout => hout hin
  refine (taken_of_settled h fun t => t.hearProbe bytes).trans (congrArg _ ?_)
  simp only [State.hearProbe, hround]
  exact if_neg hintime

/-- The time-out of the asked probe is a miss, and its answers come late from then on (R98, R99). -/
theorem exec_probeAnswerTimeout {s : State} {k at0 : Nat} {held : List Event} (h : s.settled = true)
    (hround : s.climate.round = some ⟨k, at0, held⟩) : exec .probeAnswerTimeout s =
      .next (({ s with climate := { s.climate with late := k :: s.climate.late } } : State).endProbe ⟨k, at0, held⟩ none) := by
  refine (taken_of_settled h State.probeTimesOut).trans (congrArg _ ?_)
  simp only [State.probeTimesOut, hround]
  rfl

/-- An exchange with the asked probe ends by the row `c` with the reading `answer` or as a miss, and leaves the probes `late` marked as
unanswered (R98, R99). -/
def State.Exchange (s : State) (k at0 : Nat) (c : Instr) (answer : Option Reading) (late : List Nat) : Prop :=
  c = .probeAnswerTimeout ∧ answer = none ∧ late = k :: s.climate.late ∨
    s.now ≤ at0 + 200 ∧ late = s.climate.late ∧ ∃ bytes, c = .probeAnswer bytes ∧ probeReading k bytes = answer ∧
      ∀ j, answeringProbe bytes = some j → j = k ∨ j ∉ s.climate.late

/-- A valid reading in time ends the exchange. -/
theorem exchange_of_reading {s : State} {k at0 : Nat} {bytes : List Byte} {r : Reading} (hnow : s.now ≤ at0 + 200)
    (hr : probeReading k bytes = some r) : s.Exchange k at0 (.probeAnswer bytes) (some r) s.climate.late :=
  .inr ⟨hnow, rfl, bytes, rfl, hr, fun _ hj => .inl (Option.some.inj (hj.symm.trans (answeringProbe_of_reading hr)))⟩

/-- The state once an exchange has ended: the probe's record as judged, and the probes marked as unanswered. -/
def State.exchanged (s : State) (k : Nat) (after : ProbeRecord) (late : List Nat) : State :=
  { s with climate := { s.climate with probes := s.climate.probes.set (k - 1) after, late := late } }

/-- An exchange's end: the record judged, its event held, and the next probe asked or the round ended (R98, R100, R101). -/
theorem exec_exchange {s : State} {k at0 : Nat} {held : List Event} {p : ProbeRecord} {c : Instr} {answer : Option Reading}
    {late : List Nat} (h : s.settled = true) (hround : s.climate.round = some ⟨k, at0, held⟩) (hp : s.climate.probes[k - 1]? = some p)
    (hk : 1 ≤ k) (hpolled : s.polled k = true) (hc : s.Exchange k at0 c answer late) :
    exec c s = .next ((s.exchanged k (p.judged s.climate.roundStart answer) late).nextProbe k
      (held ++ probeEvent k p (p.judged s.climate.roundStart answer))) := by
  have hend := endProbe_eq (s := { s with climate := { s.climate with late := late } }) (at0 := at0) (held := held)
    answer hp hk hpolled
  obtain ⟨rfl, rfl, rfl⟩ | ⟨hnow, rfl, bytes, rfl, rfl, hnamed⟩ := hc
  · exact (exec_probeAnswerTimeout h hround).trans (congrArg _ hend)
  · exact (exec_probeAnswer_taken h hround hnow hnamed).trans (congrArg _ hend)

/-- An exchange that is not the round's last: the record judged, its event held, the next probe asked (R98, R100, R101). -/
theorem exec_exchange_asks {s : State} {k at0 : Nat} {held : List Event} {p : ProbeRecord} {c : Instr} {answer : Option Reading}
    {late : List Nat} (h : s.settled = true) (hround : s.climate.round = some ⟨k, at0, held⟩) (hp : s.climate.probes[k - 1]? = some p)
    (hk : 1 ≤ k) (hpolled : s.polled k = true) (hnext : s.polled (k + 1) = true) (hc : s.Exchange k at0 c answer late) :
    exec c s = .next { s with climate := { s.climate with
      probes := s.climate.probes.set (k - 1) (p.judged s.climate.roundStart answer),
      late := late.filter fun j => decide (j ≠ k + 1),
      round := some ⟨k + 1, s.now, held ++ probeEvent k p (p.judged s.climate.roundStart answer)⟩ } } :=
  (exec_exchange h hround hp hk hpolled hc).trans (congrArg _ (if_pos hnext))

/-- Settles O54: the start of a round; an answer that is late by `answersLate_iff`; and an exchange by `exec_exchange_asks`, with the
record and the event of each line of the table. -/
theorem probeExchangesFollowTheTable : Obligations.ProbeExchangesFollowTheTable := by
  refine fun s h => ⟨fun hidle => ⟨fun hdue => ?_, fun hearly => ?_, fun bytes => ?_⟩, fun k at0 held p hround hp hk hpolled hnext =>
    ⟨fun bytes hlate => ?_, fun bytes r hnow hr => ?_, fun c late hc => ?_⟩⟩
  · refine (taken_of_settled h State.startRound).trans (congrArg _ ?_)
    simp only [State.startRound, hidle, if_pos hdue]
    rfl
  · refine (taken_of_settled h State.startRound).trans (congrArg _ ?_)
    simp only [State.startRound, hidle, if_neg (Nat.not_le.2 hearly)]
  · refine exec_probeAnswer_discarded h bytes fun round hround => ?_
    rw [hidle] at hround
    cases hround
  · refine exec_probeAnswer_discarded h bytes fun round hsome => ?_
    cases hround.symm.trans hsome
    exact (answersLate_iff s _ bytes).2 hlate
  · rw [exec_exchange_asks h hround hp hk hpolled hnext (exchange_of_reading hnow hr)]
    simp only [ProbeRecord.judged, probeEvent_hear]
    rfl
  · obtain ⟨left, hmiss, rfl⟩ : ∃ left, s.Exchange k at0 c none left ∧ late = left.filter fun j => decide (j ≠ k + 1) := by
      obtain ⟨rfl, rfl⟩ | ⟨hnow, rfl, hbytes⟩ := hc
      · exact ⟨_, .inl ⟨rfl, rfl, rfl⟩, rfl⟩
      · exact ⟨_, .inr ⟨hnow, rfl, hbytes⟩, rfl⟩
    rw [exec_exchange_asks h hround hp hk hpolled hnext hmiss, ProbeRecord.judged]
    refine ⟨fun hfailed => ?_, fun hstate hfresh => ?_, fun r hstate hold hr => ?_⟩
    · rw [miss_failed _ hfailed, probeEvent_failed hfailed, List.append_nil, set_of_getElem? hp]
    · rw [miss_usable _ hstate, if_pos hfresh, probeEvent_stale hstate, List.append_nil]
    · rw [miss_usable _ hstate, if_neg (Nat.not_le.2 hold), probeEvent_fails hstate hr]

end Sys2Proof.Machine

namespace Sys2Proof.Machine

/-! ### The outputs at the end of a round (R105 to R107) -/

/-- An output at the end of a round: turned OFF where anything forces, decided otherwise. -/
def ClimateOutput.atRoundEnd (now : Nat) (forced turnsOn turnsOff : Bool) (o : ClimateOutput) : ClimateOutput :=
  if forced then o.turnOff now else o.decide now turnsOn turnsOff

theorem atRoundEnd_forced (now : Nat) (turnsOn turnsOff : Bool) (o : ClimateOutput) :
    (o.atRoundEnd now true turnsOn turnsOff).on = false := by
  rw [ClimateOutput.atRoundEnd, if_pos rfl, ClimateOutput.turnOff]
  split
  · rfl
  · exact Bool.eq_false_iff.2 ‹_›

theorem minimumOffPassed_iff (now : Nat) (o : ClimateOutput) :
    minimumOffPassed now o = true ↔ ∀ off, o.offAt = some off → 120000 ≤ now - off := by
  cases hoff : o.offAt with
  | none => simp [minimumOffPassed, hoff]
  | some off =>
    simp only [minimumOffPassed, hoff, Option.some.injEq, forall_eq', decide_eq_true_iff]
    exact Iff.rfl

/-- With nothing forcing an output is ON where it was ON and is not turned off, or was OFF for long enough and is turned on. -/
theorem atRoundEnd_on (now : Nat) (turnsOn turnsOff : Bool) (o : ClimateOutput) :
    (o.atRoundEnd now false turnsOn turnsOff).on = true ↔
      (o.on = true ∧ turnsOff = false ∨
        o.on = false ∧ turnsOn = true ∧ ∀ off, o.offAt = some off → 120000 ≤ now - off) := by
  rw [ClimateOutput.atRoundEnd, if_neg Bool.false_ne_true, decide_on, ← minimumOffPassed_iff]
  cases o.on <;> simp

/-- An output that goes OFF records the time. -/
theorem atRoundEnd_offAt (now : Nat) (forced turnsOn turnsOff : Bool) (o : ClimateOutput) :
    (o.atRoundEnd now forced turnsOn turnsOff).offAt =
      if o.on = true ∧ (o.atRoundEnd now forced turnsOn turnsOff).on = false then some now else o.offAt := by
  obtain ⟨on, offAt⟩ := o
  unfold ClimateOutput.atRoundEnd ClimateOutput.turnOff ClimateOutput.decide
  cases on <;> grind

/-- The decision of both outputs, on a zone value that is known while nothing forces. -/
theorem decideOutputs_spec (s : State) : s.decideOutputs = { s with climate := { s.climate with
    humidify := if s.forcing then s.climate.humidify else s.climate.humidify.decide s.now
      (s.climate.zone.any fun z => z.rh + s.cfg.controlBand < s.cfg.rhSet) (s.climate.zone.any fun z => s.cfg.rhSet ≤ z.rh),
    dehumidify := if s.forcing then s.climate.dehumidify else s.climate.dehumidify.decide s.now
      (s.climate.zone.any fun z => s.cfg.rhSet + s.cfg.controlBand < z.rh) (s.climate.zone.any fun z => z.rh ≤ s.cfg.rhSet) } } := by
  cases hforcing : s.forcing with
  | true =>
    rw [if_pos rfl, if_pos rfl, State.decideOutputs, hforcing]
  | false =>
    rw [if_neg Bool.false_ne_true, if_neg Bool.false_ne_true]
    cases hzone : s.climate.zone with
    | none => simp [State.forcing, hzone] at hforcing
    | some z =>
      simp only [State.decideOutputs, hforcing, hzone]
      rfl

/-! ### The end of a round (R98, R101 to R107) -/

/-- The state once a round is over and its events are emitted (R98, R101). -/
def State.roundOver (s : State) (events : List Event) : State :=
  { s with climate := { s.climate with round := none }, notices := (s.emitAll events).notices }

theorem endRound_eq (s : State) (events : List Event) : s.endRound events = (s.roundOver events).formation.decideOutputs := by
  obtain ⟨c, hc⟩ : ∃ c, c = s.withClimate { s.climate with round := none } := ⟨_, rfl⟩
  have hover : c.emitAll events = s.roundOver events := by
    rw [emitAll_withNotices, emitAll_notices_congr (t := s) events (by rw [hc]; rfl) (by rw [hc]; rfl) (by rw [hc]; rfl), hc]
    rfl
  rw [State.endRound, ← hc, hover]

/-- All that the formation and the decision of the outputs do, the notices apart. -/
theorem roundEnd_spec (r : State) {t : State} (ht : t = r.formation.decideOutputs) :
    t = { r with climate := t.climate, notices := t.notices, free := t.free } ∧
      t.climate = { r.climate with
        spreadHigh := t.climate.spreadHigh, zone := t.climate.zone, inBand := t.climate.inBand,
        humidify := r.climate.humidify.atRoundEnd r.now t.forcing
          (t.climate.zone.any fun z => z.rh + r.cfg.controlBand < r.cfg.rhSet) (t.climate.zone.any fun z => r.cfg.rhSet ≤ z.rh),
        dehumidify := r.climate.dehumidify.atRoundEnd r.now t.forcing
          (t.climate.zone.any fun z => r.cfg.rhSet + r.cfg.controlBand < z.rh) (t.climate.zone.any fun z => z.rh ≤ r.cfg.rhSet) } ∧
      t.zoneFormed ∧ t.bandFormed := by
  obtain ⟨n, f, inBand, forced, hformed, hforced, hzone, hband⟩ := formation_spec r
  have hdecided := decideOutputs_spec r.formation
  rw [← ht, ← hforced] at hdecided
  have hforcing : t.forcing = forced := by
    rw [hforced, hdecided]
    rfl
  rw [hforcing]
  generalize r.formation = F at *
  refine ⟨?_, ?_, ?_, ?_⟩
  · rw [hdecided, hformed]
  · rw [hdecided, hformed]
    cases forced <;> rfl
  · rw [hdecided]
    exact hzone
  · rw [hdecided]
    exact hband

/-- The formation's notices stand through the decision of the outputs, which emits nothing. -/
theorem roundEnd_notices (r : State) (hl : r.notices.pending.length = 16) {t : State} (ht : t = r.formation.decideOutputs) :
    (∀ n, n ≠ 12 → n ≠ 13 → t.pendingNotice n = r.pendingNotice n) ∧
    (t.climate.inBand = r.climate.inBand → t.pendingNotice 12 = r.pendingNotice 12) ∧
    (t.climate.inBand ≠ r.climate.inBand → r.records 12 = true →
      ∃ x, t.pendingNotice 12 = some x ∧ x.content = .zoneBand t.climate.inBand t.climate.zone) ∧
    (t.climate.spreadHigh = false ∨ r.climate.spreadHigh = true → t.pendingNotice 13 = r.pendingNotice 13) ∧
    (t.climate.spreadHigh = true → r.climate.spreadHigh = false → r.records 13 = true →
      ∃ x a b high low, t.pendingNotice 13 = some x ∧ x.content = .spreadHigh (high.rh - low.rh) a b ∧
        (a, high) ∈ t.usable ∧ (b, low) ∈ t.usable ∧ ∀ y ∈ t.usable, low.rh ≤ y.2.rh ∧ y.2.rh ≤ high.rh) := by
  have hnotices := formation_notices r hl
  rw [ht, decideOutputs_spec]
  exact hnotices

/-- The row that ends the round's last exchange, with the reading or the miss that gives the record `after` (R99, R100). -/
theorem exchange_of_after {s : State} {k at0 : Nat} {p after : ProbeRecord} {c : Instr}
    (hc : c = .probeAnswerTimeout ∧ p.missed s.climate.roundStart after ∨
      s.now ≤ at0 + 200 ∧ ∃ bytes, c = .probeAnswer bytes ∧
        ((∃ r, probeReading k bytes = some r ∧ after = ⟨.valid, some r, s.climate.roundStart, true⟩) ∨
          probeReading k bytes = none ∧ (∀ j, answeringProbe bytes = some j → j = k ∨ j ∉ s.climate.late) ∧
            p.missed s.climate.roundStart after)) :
    ∃ answer late, s.Exchange k at0 c answer late ∧ p.judged s.climate.roundStart answer = after := by
  obtain ⟨rfl, hmissed⟩ | ⟨hnow, bytes, rfl, ⟨r, hr, rfl⟩ | ⟨hno, hnamed, hmissed⟩⟩ := hc
  · exact ⟨none, _, .inl ⟨rfl, rfl, rfl⟩, miss_of_missed hmissed⟩
  · exact ⟨some r, _, exchange_of_reading hnow hr, rfl⟩
  · exact ⟨none, _, .inr ⟨hnow, rfl, bytes, rfl, hno, hnamed⟩, miss_of_missed hmissed⟩

/-- Settles O55: the last exchange ends the round by `endRound_eq`; the formation and the decision are `roundEnd_spec` and
`roundEnd_notices`, and each output is read off `ClimateOutput.atRoundEnd`. -/
theorem roundEndFormsZoneValue : Obligations.RoundEndFormsZoneValue := by
  intro s k at0 held p after c h hround hp hk hpolled hlast hc
  obtain ⟨answer, late, hexchange, hafter⟩ := exchange_of_after hc
  have hexec := exec_exchange h hround hp hk hpolled hexchange
  have hends : ¬(s.exchanged k after late).polled (k + 1) = true := Bool.eq_false_iff.1 hlast
  rw [hafter, State.nextProbe, if_neg hends, endRound_eq] at hexec
  obtain ⟨events, hevents⟩ : ∃ events, events = held ++ probeEvent k p after := ⟨_, rfl⟩
  rw [← hevents] at hexec ⊢
  obtain ⟨r, hr⟩ : ∃ r, r = (s.exchanged k after late).roundOver events := ⟨_, rfl⟩
  rw [← hr] at hexec
  have hemitted : r.notices = (s.emitAll events).notices := by
    rw [hr]
    exact emitAll_notices_congr events rfl rfl rfl
  refine ⟨_, hexec, ?_⟩
  obtain ⟨t, ht⟩ : ∃ t, t = r.formation.decideOutputs := ⟨_, rfl⟩
  have hnotices := fun hl => roundEnd_notices r hl ht
  obtain ⟨hframe, hclimate, hzone, hband⟩ := roundEnd_spec r ht
  rw [← ht]
  clear ht hexec
  subst hr
  have hhumidify := congrArg ClimateUnit.humidify hclimate
  have hdehumidify := congrArg ClimateUnit.dehumidify hclimate
  refine ⟨hframe, congrArg ClimateUnit.round hclimate, congrArg ClimateUnit.probes hclimate,
    (congrArg ClimateUnit.roundStart hclimate).trans rfl, (congrArg ClimateUnit.nextRound hclimate).trans rfl,
    (congrArg ClimateUnit.account hclimate).trans rfl, (congrArg ClimateUnit.latch hclimate).trans rfl, hzone, hband,
    fun hforced => ?_, fun z hfree hz => ?_, ?_, ?_, fun hl hheld => ?_⟩
  · rw [hhumidify, hdehumidify, hforced, atRoundEnd_forced, atRoundEnd_forced]
    exact ⟨rfl, rfl⟩
  · rw [hhumidify, hdehumidify, hfree, hz, atRoundEnd_on, atRoundEnd_on]
    simp only [Option.any_some, decide_eq_true_iff, decide_eq_false_iff_not, Nat.not_le]
    exact ⟨Iff.rfl, Iff.rfl⟩
  · rw [hhumidify]
    exact atRoundEnd_offAt _ _ _ _ _
  · rw [hdehumidify]
    exact atRoundEnd_offAt _ _ _ _ _
  · have hsource : ∀ e ∈ events, e.source = 13 := fun e he => by
      rw [hevents] at he
      exact (List.mem_append.1 he).elim (hheld e) (probeEvent_source k p after e)
    have hother {n : Nat} (hn : n ≠ 13) : (s.emitAll events).pendingNotice n = s.pendingNotice n :=
      emitAll_pendingNotice_other s events n fun e he => by rw [hsource e he]; exact hn
    obtain ⟨hrest, hsame, hchanged, hstays, hrises⟩ := hnotices (by rw [hemitted, emitAll_length, hl])
    refine ⟨fun n h12 h13 => ?_, fun hb => ?_, hchanged, fun hs => ?_, hrises⟩
    · rw [hrest n h12 h13, pendingNotice_congr n hemitted, hother h13]
    · rw [hsame hb, pendingNotice_congr 12 hemitted, hother (by decide)]
    · rw [hstays hs, pendingNotice_congr 13 hemitted]

end Sys2Proof.Machine

namespace Sys2Proof.Machine

/-! ### Requests refused before their layout (R178) -/

/-- A ready request of the row's kind is judged and answered. -/
theorem taken_judged {s : State} {r : Request} {rest : List Request} (h : s.ready r rest) {kind : RequestKind}
    {fits : List Byte → Bool} {owner : Request → State → Reply} {reply : Reply} (hk : requestKindOf r.payload = some kind)
    (hf : fits (requestFields r.payload) = true) (hreply : judgeRequest kind owner r (s.popped rest) = reply) :
    taken s (fun t => t.takeRequest kind fits owner) = .next (reply.state.queueAnswer (answerFor (kindByte kind) r reply)) := by
  obtain ⟨hsettled, _⟩ := id h
  rw [taken_of_settled hsettled]
  simp only [State.takeRequest, headRequest_of_ready h, hk, hf, and_self, if_true, popRequest_of_ready h]
  subst hreply
  rfl

/-- Before configuration every kind but CONFIGURE and QUERY ZONE is refused. -/
theorem taken_notConfigured {s : State} {r : Request} {rest : List Request} (h : s.ready r rest) (hs : s.configured = false)
    {kind : RequestKind} {fits : List Byte → Bool} {owner : Request → State → Reply} (hk : requestKindOf r.payload = some kind)
    (hf : fits (requestFields r.payload) = true) (hconfigure : kind ≠ .configure) (hquery : kind ≠ .queryZone) :
    taken s (fun t => t.takeRequest kind fits owner) = .next (s.answered r rest (kindByte kind) .notConfigured []) := by
  have hrefused : (!(s.popped rest).configured && kind != .configure && kind != .queryZone) = true := by
    rw [show (s.popped rest).configured = false from hs, Bool.and_eq_true, Bool.and_eq_true, bne_iff_ne, bne_iff_ne]
    exact ⟨⟨rfl, hconfigure⟩, hquery⟩
  rw [taken_judged h hk hf (if_pos hrefused)]
  rfl

/-- A kind that the custodian key guards is refused without the key. -/
theorem taken_notAuthorized {s : State} {r : Request} {rest : List Request} (h : s.ready r rest) (hs : s.configured = true)
    (hkey : s.pins.keyOn = false) {kind : RequestKind} {fits : List Byte → Bool} {owner : Request → State → Reply}
    (hk : requestKindOf r.payload = some kind) (hf : fits (requestFields r.payload) = true) (hcustodial : kind.custodial = true) :
    taken s (fun t => t.takeRequest kind fits owner) = .next (s.answered r rest (kindByte kind) .notAuthorized []) := by
  have hadmitted : ¬(!(s.popped rest).configured && kind != .configure && kind != .queryZone) = true := by
    rw [show (s.popped rest).configured = true from hs]
    exact Bool.false_ne_true
  have hrefused : (kind.custodial && !(s.popped rest).pins.keyOn) = true := by
    rw [show (s.popped rest).pins.keyOn = false from hkey, hcustodial]
    rfl
  rw [taken_judged h hk hf ((if_neg hadmitted).trans (if_pos hrefused))]
  rfl

end Sys2Proof.Machine

namespace Sys2Proof.Machine

/-! ### The zone report in its three parts (11.3) -/

/-- The ten bytes of the zone report before the probes'. -/
def State.reportHead (s : State) : List Byte :=
  [flagByte s.configured, flagByte s.climate.zone.isSome] ++ ((s.climate.zone.map readingBytes).getD [0, 0, 0, 0] ++
    ([flagByte s.climate.inBand, flagByte s.climate.spreadHigh] ++ toBytes 2 ((rhSpreadOf s.usable).getD 0)))

/-- The nine bytes of the zone report after the probes'. -/
def State.reportTail (s : State) (partCounts : Bool) : List Byte :=
  outputReportBytes s.now partCounts s.climate.humidify ++ (outputReportBytes s.now partCounts s.climate.dehumidify ++
    ([flagByte s.forcing] ++ (toBytes 3 s.climate.account ++ [flagByte s.climate.latch])))

theorem zoneReport_eq (s : State) (partCounts : Bool) : s.zoneReport partCounts =
    s.reportHead ++ (probesReportFrom s.polled s.climate.roundStart 1 s.climate.probes ++ s.reportTail partCounts) := by
  unfold State.zoneReport State.reportHead State.reportTail
  simp only [List.append_assoc]
  cases s.climate.zone <;> rfl

theorem reportHead_length (s : State) : s.reportHead.length = 10 := by
  unfold State.reportHead
  cases s.climate.zone <;> rfl

section
variable {s : State} (partCounts : Bool) (h : s.climate.probes.length = 4)
include h

theorem probesReport_length : (probesReportFrom s.polled s.climate.roundStart 1 s.climate.probes).length = 32 := by
  rw [probesReportFrom_length, h]

theorem zoneReport_length : (s.zoneReport partCounts).length = 51 := by
  rw [zoneReport_eq, List.length_append, List.length_append, reportHead_length, probesReport_length h]
  rfl

theorem zoneReport_drop : (s.zoneReport partCounts).drop 42 = s.reportTail partCounts := by
  rw [zoneReport_eq, ← List.append_assoc, List.drop_left' (by rw [List.length_append, reportHead_length, probesReport_length h])]

theorem zoneReport_tail (i : Nat) : (s.zoneReport partCounts)[42 + i]? = (s.reportTail partCounts)[i]? := by
  rw [← zoneReport_drop partCounts h, List.getElem?_drop]

/-- The eight bytes of a probe, by its number. -/
theorem zoneReport_probe {k : Nat} {p : ProbeRecord} (hk : 1 ≤ k) (hp : s.climate.probes[k - 1]? = some p) :
    ((s.zoneReport partCounts).drop (2 + 8 * k)).take 8 = probeReportBytes (s.polled k) s.climate.roundStart p := by
  have hlt : k - 1 < 4 := h ▸ (List.getElem?_eq_some_iff.1 hp).1
  have hlength := probesReport_length h
  rw [zoneReport_eq, show 2 + 8 * k = 10 + 8 * (k - 1) by omega, ← List.drop_drop, List.drop_left' (reportHead_length s),
    List.drop_append_of_le_length (by omega), List.take_append_of_le_length (by rw [List.length_drop]; omega),
    probesReportFrom_block _ _ _ _ _ p hp, Nat.add_sub_cancel' hk]

end

/-! ### The fields of the zone report -/

/-- The usable probes by the terms of the zone value (R97, R102). -/
theorem mem_usable (s : State) (k : Nat) (y : Reading) : (k, y) ∈ s.usable ↔
    1 ≤ k ∧ k ≤ (if s.configured then s.cfg.probeCount else 4) ∧
      ∃ p, s.climate.probes[k - 1]? = some p ∧ p.state ≠ .failed ∧ p.reading = some y :=
  (zoneFormed_of { s with climate := { s.climate with zone := zoneValueOf s.usable } } rfl).1 k y

/-- Three bytes spell the number they were written from. -/
theorem ofBytes3 (k : Nat) (h : k ≤ 16777215) : ofBytes (toBytes 3 k) = k := by
  simp [toBytes, ofBytes, Nat.shiftRight_eq_div_pow]
  omega

/-- The seconds left of an output that is ON, or never went OFF. -/
theorem offSecondsLeft_none (now : Nat) (partCounts : Bool) {o : ClimateOutput} (h : o.on = true ∨ o.offAt = none) :
    offSecondsLeft now partCounts o = 0 := by
  obtain ⟨on, offAt⟩ := o
  obtain rfl | rfl := h
  · rfl
  · cases on <;> rfl

/-- The seconds left of an output that went OFF, a part of a second counted as the free value says (log 10). -/
theorem offSecondsLeft_off (now : Nat) (partCounts : Bool) {o : ClimateOutput} {off : Nat} (hon : o.on = false)
    (hoff : o.offAt = some off) : offSecondsLeft now partCounts o = (120000 - (now - off) + if partCounts then 999 else 0) / 1000 := by
  obtain ⟨_, _⟩ := o
  cases hon
  cases hoff
  rfl

/-- The conditions that force the outputs, as the report gives them (R107). -/
theorem forcing_iff (s : State) : s.forcing = true ↔
    s.configured = false ∨ s.climate.zone = none ∨ 2 ≤ seqCode s.fire.seq ∨ s.fire.neighbourAlert = true := by
  simp only [State.forcing, Bool.or_eq_true, Bool.not_eq_true', Option.isNone_iff_eq_none, inAlarm_iff, or_assoc]

/-- The flag byte of a condition. -/
theorem flagByte_eq {b : Bool} {P : Prop} [Decidable P] (h : b = true ↔ P) : flagByte b = if P then 1 else 0 := by
  rw [flagByte, if_congr h rfl rfl]

/-- A probe's bytes, by the terms of its record (R97, R100, 11.3). -/
theorem probeReportBytes_eq (s : State) {k : Nat} (hk : 1 ≤ k) (p : ProbeRecord) : probeReportBytes (s.polled k) s.climate.roundStart p =
    ([if k ≤ (if s.configured then s.cfg.probeCount else 4) then 1 else 0, BitVec.ofNat 8 (probeStateCode p.state)] : List Byte) ++
      (p.reading.map fun y => toBytes 2 y.rh ++ signedBytes y.temperature ++ toBytes 2 (s.climate.roundStart - p.stamp)).getD
        [0, 0, 0, 0, 0, 0] := by
  have hpolled : s.polled k = true ↔ k ≤ (if s.configured then s.cfg.probeCount else 4) := by
    rw [State.polled, Bool.and_eq_true, decide_eq_true_iff, decide_eq_true_iff]
    exact and_iff_right hk
  rw [probeReportBytes, flagByte_eq hpolled]
  cases p.reading <;> rfl

/-- The two bytes of each output, at place 42 and place 44 (11.3). -/
theorem zoneReport_output {s : State} (h : s.climate.probes.length = 4) (partCounts : Bool) {n : Nat} {o : ClimateOutput}
    (ho : n = 42 ∧ o = s.climate.humidify ∨ n = 44 ∧ o = s.climate.dehumidify) :
    (s.zoneReport partCounts)[n]? = some (flagByte o.on) ∧
      (s.zoneReport partCounts)[n + 1]? = some (BitVec.ofNat 8 (offSecondsLeft s.now partCounts o)) := by
  obtain ⟨rfl, rfl⟩ | ⟨rfl, rfl⟩ := ho
  · exact ⟨zoneReport_tail partCounts h 0, zoneReport_tail partCounts h 1⟩
  · exact ⟨zoneReport_tail partCounts h 2, zoneReport_tail partCounts h 3⟩

/-- QUERY ZONE is answered with the zone report, configured or not (R111). -/
theorem exec_queryZone {s : State} {r : Request} {rest : List Request} (h : s.ready r rest) (hr : r.payload = [11]) :
    exec .queryZone s = .next { s.answered r rest 11 .done (s.zoneReport (Config.partSecondCounts s.free)) with free := s.free + 1 } := by
  have hk : requestKindOf r.payload = some .queryZone := by rw [hr]; rfl
  have hw : layoutWhole .queryZone (requestFields r.payload) = true := by rw [hr]; rfl
  exact taken_reply h .queryZone ⟨.inr (.inr rfl), nofun⟩ hk rfl hw _ rfl

/-- The spread's two bytes (R103). -/
theorem zoneReport_spread (s : State) (partCounts : Bool) :
    ((s.zoneReport partCounts).drop 8).take 2 = toBytes 2 ((rhSpreadOf s.usable).getD 0) := by
  rw [zoneReport_eq, State.reportHead]
  cases s.climate.zone <;> rfl

/-- The four bytes of the zone value, after the two flags (11.3). -/
theorem zoneReport_zone (s : State) (partCounts : Bool) :
    (s.zoneReport partCounts)[1]? = some (if s.climate.zone = none then 0 else 1) ∧
      ((s.zoneReport partCounts).drop 2).take 4 = (s.climate.zone.map readingBytes).getD [0, 0, 0, 0] ∧
      (s.zoneReport partCounts)[6]? = some (flagByte s.climate.inBand) ∧
      (s.zoneReport partCounts)[7]? = some (flagByte s.climate.spreadHigh) := by
  rw [zoneReport_eq, State.reportHead]
  cases s.climate.zone <;> exact ⟨rfl, rfl, rfl, rfl⟩

/-- Settles O20: the report's three parts have their lengths, so each field stands at its place; EXCURSION CLEAR by the checks of its kind. -/
theorem queryZoneReportsAndExcursionClears : Obligations.QueryZoneReportsAndExcursionClears := by
  refine fun s r rest h => ⟨fun hr hl => ?_, fun hr => ?_⟩
  · obtain ⟨partCounts, hpart⟩ : ∃ b, b = Config.partSecondCounts s.free := ⟨_, rfl⟩
    have hexec := exec_queryZone h hr
    rw [← hpart] at hexec
    obtain ⟨hknown, hzone, hinBand, hspreadHigh⟩ := zoneReport_zone s partCounts
    have hspread := zoneReport_spread s partCounts
    refine ⟨s.zoneReport partCounts, zoneReport_length partCounts hl, hexec, ?_, hknown, ?_, hinBand, hspreadHigh, fun hfew => ?_,
      fun hmany => ?_, mem_usable s, fun k p hk hp => ?_, ⟨if partCounts then 999 else 0, ?_, fun n o ho => ?_⟩, ?_, fun haccount => ?_,
      zoneReport_tail partCounts hl 8⟩
    · rw [zoneReport_eq]
      rfl
    · rw [hzone]
      cases s.climate.zone <;> rfl
    · rw [hspread, rhSpreadOf_none _ hfew]
      rfl
    · obtain ⟨high, hhigh, low, hlow, hbounds, hd⟩ := rhSpreadOf_some _ hmany
      exact ⟨high, hhigh, low, hlow, hbounds, by rw [hspread, hd, Option.getD_some]⟩
    · rw [zoneReport_probe partCounts hl hk hp, probeReportBytes_eq s hk]
      cases p.state <;> cases p.reading <;> rfl
    · cases partCounts
      · exact .inl rfl
      · exact .inr rfl
    · obtain ⟨hon, hseconds⟩ := zoneReport_output hl partCounts ho
      refine ⟨hon, fun hnone => ?_, fun off hoff hat => ?_⟩
      · rw [hseconds, offSecondsLeft_none _ _ hnone]
        rfl
      · rw [hseconds, offSecondsLeft_off _ _ hoff hat]
    · exact (zoneReport_tail partCounts hl 4).trans (congrArg some (flagByte_eq (forcing_iff s)))
    · have hbytes : ((s.zoneReport partCounts).drop 47).take 3 = toBytes 3 s.climate.account := by
        rw [show 47 = 42 + 5 from rfl, ← List.drop_drop, zoneReport_drop partCounts hl]
        rfl
      rw [hbytes, ofBytes3 _ haccount]
  · have hk : requestKindOf r.payload = some .excursionClear := by rw [hr]; rfl
    have hw : layoutWhole .excursionClear (requestFields r.payload) = true := by rw [hr]; rfl
    refine ⟨fun hs => ?_, fun hs hkey => ?_, fun hs hkey => ?_⟩
    · exact taken_notConfigured h hs hk rfl nofun nofun
    · exact taken_notAuthorized h hs hkey hk rfl rfl
    · exact taken_reply h .excursionClear ⟨.inl hs, fun _ => hkey⟩ hk rfl hw _ rfl

end Sys2Proof.Machine

namespace Sys2Proof.Machine

/-! ### FIRE RESET taken (R131) -/

theorem alarmChannels_of_noAlarm {s : State} (h : s.alarmCondition = false) : s.alarmChannels = [] := by
  rwa [State.alarmCondition, Bool.not_eq_false', List.isEmpty_iff] at h

/-- Nothing forces in QUIET but what forces in every state (R107). -/
theorem forcing_of_enterQuiet {s : State} (c : FireCause) (h : (s.enterSeq .quiet c).forcing = true) : s.forcing = true := by
  obtain ⟨hz, hn⟩ : (s.enterSeq .quiet c).climate.zone = s.climate.zone ∧
      (s.enterSeq .quiet c).fire.neighbourAlert = s.fire.neighbourAlert :=
    ⟨by rw [enterSeq_climate]; rfl, by rw [enterSeq_fire]⟩
  have hseq : ¬2 ≤ seqCode (s.enterSeq .quiet c).fire.seq := by
    rw [show (s.enterSeq .quiet c).fire.seq = .quiet by rw [enterSeq_fire]]
    decide
  rw [forcing_iff, State.configured, State.enterSeq_request, hz, hn] at h
  rw [forcing_iff]
  exact h.imp_right (Or.imp_right fun hlate => .inr (hlate.resolve_left hseq))

/-- Outputs that are held as O59 says stay as they are where nothing forces that did not force before. -/
theorem climateForcedIn_of_held {s t : State} (hheld : s.climateHeld = true) (h : t.forcing = true → s.forcing = true) :
    s.climateForcedIn t = s.climate := by
  obtain ⟨_, hoff⟩ := (climateHeld_iff s).1 hheld
  have hhumidify : ¬(t.forcing = true ∧ s.climate.humidify.on = true) := fun ⟨hf, hon⟩ =>
    absurd hon (Bool.eq_false_iff.1 (hoff (h hf)).1)
  have hdehumidify : ¬(t.forcing = true ∧ s.climate.dehumidify.on = true) := fun ⟨hf, hon⟩ =>
    absurd hon (Bool.eq_false_iff.1 (hoff (h hf)).2)
  rw [State.climateForcedIn, if_neg hhumidify, if_neg hdehumidify]

/-- The call latch cleared, before the sequence changes (R131). -/
def State.latchCleared (s : State) : State := s.withFire { s.fire with callLatch := false }

theorem fireResetTaken_eq (s : State) : s.fireResetTaken = s.latchCleared.enterSeq .quiet .fireReset := rfl

/-- The fire unit once a reset is taken: the latch clear, every timer stopped, the outputs of QUIET (R128, R131, R133, R134). -/
theorem fireResetTaken_fire (s : State) : s.fireResetTaken.fire = { s.fire with
    callLatch := false, seq := .quiet, countdown := none, pulse := none, soak := none, release := false,
    sounder := if s.fire.generalSeen then .alert else .off, damperClosed := s.fire.neighbourAlert } := by
  rw [fireResetTaken_eq, enterSeq_fire]
  rfl

/-- A reset that is taken changes the fire unit, the climate outputs and the notices alone. -/
theorem fireResetTaken_afterSequence (s : State) : s.fireResetTaken = s.afterSequence s.fireResetTaken :=
  enterSeq_afterSequence s.latchCleared .quiet .fireReset

/-- A reset that is taken leaves climate outputs that are held as they are. -/
theorem fireResetTaken_climate {s : State} (h : s.climateHeld = true) : s.fireResetTaken.climate = s.climate :=
  have hheld : s.latchCleared.climateHeld = true := h
  (enterSeq_climate s.latchCleared .quiet .fireReset).trans (climateForcedIn_of_held hheld (forcing_of_enterQuiet _))

/-- The FIRE STATE event of a reset taken with no input against it (R129). -/
theorem fireResetTaken_notices {s : State} (halarm : s.alarmCondition = false) (hcall : s.fire.callOperated = false) :
    s.fireResetTaken.notices = (s.emit (.fireState .quiet s.fire.seq .fireReset [] s.faultChannels false false s.fire.holdOn
      s.fire.isolateOn s.fire.doorOpen s.fire.agentReady s.custody.zoneClock)).notices := by
  have halarms : s.latchCleared.alarmChannels = [] := alarmChannels_of_noAlarm halarm
  have hoperated : s.latchCleared.fire.callOperated = false := hcall
  rw [fireResetTaken_eq, enterSeq_notices, halarms, hoperated]
  exact emit_notices_congr s.latchCleared s _ rfl rfl rfl

/-! ### FIRE RESET by its table (R131) -/

theorem inputsActive_iff (s : State) : s.inputsActive = true ↔
    s.alertCondition = true ∨ s.alarmCondition = true ∨ s.fire.callOperated = true := by
  rw [State.inputsActive, Bool.or_eq_true, Bool.or_eq_true, or_assoc]

theorem fireResetReply_quiet {s : State} (r : Request) (h : s.fire.seq = .quiet) : fireResetReply r s = s.doneReply := by
  rw [fireResetReply, h]

theorem fireResetReply_running {s : State} (r : Request)
    (h : s.fire.seq = .preDischarge ∨ s.fire.seq = .discharge ∨ s.fire.seq = .soak) :
    fireResetReply r s = s.refuse .sequenceRunning := by
  rcases h with h | h | h <;> rw [fireResetReply, h]

/-- In the other states a reset goes by the inputs that stand against it. -/
theorem fireResetReply_byInputs {s : State} (r : Request)
    (h : s.fire.seq = .preAlert ∨ s.fire.seq = .alarm1 ∨ s.fire.seq = .confirmed ∨ s.fire.seq = .resetWait) :
    fireResetReply r s = if s.inputsActive then s.refuse .inputsActive else s.fireResetTaken.doneReply := by
  rcases h with h | h | h | h <;> rw [fireResetReply, h]

/-- Settles O21: the checks are those of the kind, and past them the reply goes by the sequence state; a reset that is taken is
`State.fireResetTaken` with the answer queued. -/
theorem fireResetByItsTable : Obligations.FireResetByItsTable := by
  intro s r rest h hr
  have hk : requestKindOf r.payload = some .fireReset := by rw [hr]; rfl
  have hw : layoutWhole .fireReset (requestFields r.payload) = true := by rw [hr]; rfl
  refine ⟨fun hs => ?_, fun hs hkey => ?_, fun hs hkey => ?_⟩
  · exact taken_notConfigured h hs hk rfl nofun nofun
  · exact taken_notAuthorized h hs hkey hk rfl rfl
  have hp : s.passes .fireReset := ⟨.inl hs, fun _ => hkey⟩
  refine ⟨fun hquiet => ?_, fun hrunning => ?_, fun hresettable => ⟨fun hactive => ?_, fun halert halarm hcall => ?_⟩⟩
  · exact taken_unchanged h hp hk rfl hw (fireResetReply_quiet (s := s.popped rest) r hquiet)
  · exact taken_unchanged h hp hk rfl hw (fireResetReply_running (s := s.popped rest) r hrunning)
  · have hinputs : s.inputsActive = true := (inputsActive_iff _).2 hactive
    exact taken_unchanged h hp hk rfl hw ((fireResetReply_byInputs (s := s.popped rest) r hresettable).trans (if_pos hinputs))
  · have hinputs : s.inputsActive = false := by rw [State.inputsActive, halert, halarm, hcall]; rfl
    have howner := (fireResetReply_byInputs (s := s.popped rest) r hresettable).trans (if_neg (Bool.eq_false_iff.1 hinputs))
    refine ⟨_, taken_reply h .fireReset hp hk rfl hw _ howner, ?_, fireResetTaken_fire (s.popped rest),
      fireResetTaken_climate (s := s.popped rest), ?_⟩
    · exact congrArg (State.queueAnswer · _) (fireResetTaken_afterSequence (s.popped rest))
    · exact (fireResetTaken_notices (s := s.popped rest) halarm hcall).trans (emit_notices_congr _ _ _ rfl rfl rfl)

end Sys2Proof.Machine

namespace Sys2Proof.Machine

/-! ### Inputs that are only recorded -/

/-- Settles O6: on a settled state each row is the recording of its input. -/
theorem recordedInputsChangeNothingElse : Obligations.RecordedInputsChangeNothingElse := by
  refine fun s h => ⟨fun on => ?_, fun a => ?_, fun o => ?_, fun r => ?_, ?_⟩
  · exact taken_of_settled h fun t => t.withPins { t.pins with keyOn := on }
  · exact taken_of_settled h fun t => t.withPins { t.pins with straps := a.val }
  · exact taken_of_settled h fun t => t.recordDoor o
  · exact taken_of_settled h fun t => t.recordAgent r
  · exact taken_of_settled h State.callReleased

end Sys2Proof.Machine

namespace Sys2Proof.Machine

/-! ### What a transfer message matches -/

/-- A matched entry is one of the sender, under the number carried (R144). -/
theorem matching_sender {s : State} {d : Direction} {sender number : Nat} {id : Ident} {e : TransferEntry}
    (h : s.matching d sender number id = some e) : e.peer = sender ∧ e.number = number := by
  unfold State.matching at h
  split at h
  · cases h
  · split at h
    · rename_i hsame
      cases h
      exact hsame.2
    · cases h

/-- An OUT entry that is not TAKEN is OFFERED. -/
theorem isOffered_of_out {e : TransferEntry} (hd : e.direction = .out) (h : ∀ limit, e.state ≠ .taken limit) : e.isOffered = true := by
  rcases e with ⟨_, _, _, st⟩
  cases st with
  | offered => rfl
  | taken limit => exact absurd rfl (h limit)
  | awaitingArrival => cases hd

/-- An IN entry awaits its arrival. -/
theorem awaiting_of_in {e : TransferEntry} (hd : e.direction = .in_) : ∃ limit, e.state = .awaitingArrival limit := by
  rcases e with ⟨_, _, _, st⟩
  cases st with
  | offered => cases hd
  | taken => cases hd
  | awaitingArrival limit => exact ⟨limit, rfl⟩

/-- The end of a transfer that deletes the record, with the outcome's event written out (R160). -/
theorem dropCartridge_eq (s : State) (e : TransferEntry) (o : TransferOutcome) :
    s.dropCartridge e o = ((s.eraseRecord e.id).eraseEntry e.id).emit
      (.transferOutcome e.id e.direction e.peer e.number o none s.minute) := rfl

/-! ### TAKE, WITHDRAW and ARRIVED on their entries -/

section
variable {m : PeerIn} {id : Ident} {n : Byte} {t : State} (hid : identOk id = true) (hp : m.payload = id ++ [n])
include hid hp

theorem takeTake_of_matching {e : TransferEntry} (hm : t.matching .out m.sender n.toNat id = some e) :
    takeTake m t = if e.isOffered then t.putEntry { e with state := .taken t.cfg.transitLimit } else t := by
  simp only [takeTake, hp, transferOf_append id n hid, hm]

theorem takeTake_of_unmatched (hm : t.matching .out m.sender n.toNat id = none) :
    takeTake m t = t.queuePeer ⟨m.sender, .withdraw id n.toNat⟩ := by
  simp only [takeTake, hp, transferOf_append id n hid, hm]

theorem takeWithdraw_of_matching {e : TransferEntry} (hm : t.matching .in_ m.sender n.toNat id = some e) :
    takeWithdraw m t = t.dropCartridge e .cancelledBySender := by
  simp only [takeWithdraw, hp, transferOf_append id n hid, hm]

theorem takeWithdraw_of_unmatched (hm : t.matching .in_ m.sender n.toNat id = none) : takeWithdraw m t = t := by
  simp only [takeWithdraw, hp, transferOf_append id n hid, hm]

/-- An ARRIVED ends the TAKEN entry that it matches (R151). -/
theorem takeArrived_of_taken {e : TransferEntry} {limit : Nat} (hm : t.matching .out m.sender n.toNat id = some e)
    (hst : e.state = .taken limit) : takeArrived m t = t.dropCartridge e .delivered := by
  have hoffered : e.isOffered = false := by rw [TransferEntry.isOffered, hst]
  simp only [takeArrived, hp, transferOf_append id n hid, hm, hoffered, Bool.false_eq_true, if_false]

/-- An ARRIVED that matches no TAKEN entry is late (R154). -/
theorem takeArrived_of_late
    (h : ∀ e, t.entry id = some e → e.peer ≠ m.sender ∨ e.number ≠ n.toNat ∨ ∀ limit, e.state ≠ .taken limit) :
    takeArrived m t = t.lateArrived id m.sender n.toNat := by
  simp only [takeArrived, hp, transferOf_append id n hid]
  cases hm : t.matching .out m.sender n.toNat id with
  | none => rfl
  | some e =>
    obtain ⟨he, hd⟩ := matching_eq_some hm
    obtain ⟨hpeer, hnumber⟩ := matching_sender hm
    have hstate : ∀ limit, e.state ≠ .taken limit := ((h e he).resolve_left fun k => k hpeer).resolve_left fun k => k hnumber
    exact if_pos (isOffered_of_out hd hstate)

end

/-- Settles O38: by the OUT entry that the TAKE matches, if any. -/
theorem takeMovesOfferOrIsLate : Obligations.TakeMovesOfferOrIsLate := by
  intro s m rest id n h hk hd hid hp
  have htake : exec .take s = .next (takeTake m (s.peerTaken rest)) := taken_peer h hk hd
  rw [htake]
  refine ⟨fun wait he => ?_, fun limit he => ?_, fun hlate => ?_⟩
  · rw [takeTake_of_matching hid hp (matching_of_entry (s := s.peerTaken rest) he rfl rfl rfl)]
    rfl
  · rw [takeTake_of_matching hid hp (matching_of_entry (s := s.peerTaken rest) he rfl rfl rfl)]
    rfl
  · rw [takeTake_of_unmatched hid hp (matching_eq_none fun e he => ?_)]
    · rfl
    rcases hlate e he with hpeer | hnumber | hin
    · exact .inr (.inl hpeer)
    · exact .inr (.inr hnumber)
    · exact .inl (by rw [hin]; decide)

/-! ### The late ARRIVED -/

/-- A SUSPECT TRANSIT LOST record is deleted by a late ARRIVED (R154). -/
theorem lateArrived_of_lost {s : State} {id : Ident} {x : Record} {held : Option Position} {advised : Option Nat}
    (hx : s.find id = some x) (hst : x.st = .suspect held advised .transitLost) (sender number : Nat) :
    s.lateArrived id sender number =
      (s.eraseRecord id).emit (.transferOutcome id .out sender number .resolvedLate none s.minute) := by
  simp only [State.lateArrived, hx, hst]

/-- With no SUSPECT TRANSIT LOST record a late ARRIVED is discarded (R154). -/
theorem lateArrived_of_other {s : State} {id : Ident}
    (h : ∀ x held advised, s.find id = some x → x.st ≠ .suspect held advised .transitLost) (sender number : Nat) :
    s.lateArrived id sender number = s := by
  unfold State.lateArrived
  split
  · rfl
  · rename_i x hx
    split
    · rename_i held advised hst
      exact absurd hst (h x held advised hx)
    · rfl

/-- Settles O40: by the entry that the message matches or, late, by the record; and by the entry whose limit has reached 0. -/
theorem endedTransferDeletesTheRecord : Obligations.EndedTransferDeletesTheRecord := by
  refine ⟨fun s m rest id n h hd hid hp => ?_, fun s e he hst => ?_⟩
  · have harrived (hk : m.kind = .arrived) : exec .arrived s = .next (takeArrived m (s.peerTaken rest)) := taken_peer h hk hd
    have hwithdraw (hk : m.kind = .withdraw) : exec .withdraw s = .next (takeWithdraw m (s.peerTaken rest)) :=
      taken_peer h hk hd
    refine ⟨fun limit hk he => ?_, fun limit hk he => ?_, fun hk hlate => ?_, fun hk hlate => ?_⟩
    · rw [harrived hk, takeArrived_of_taken hid hp (matching_of_entry (s := s.peerTaken rest) he rfl rfl rfl) rfl, dropCartridge_eq]
      rfl
    · rw [hwithdraw hk, takeWithdraw_of_matching hid hp (matching_of_entry (s := s.peerTaken rest) he rfl rfl rfl), dropCartridge_eq]
      rfl
    · rw [hwithdraw hk, takeWithdraw_of_unmatched hid hp (matching_eq_none fun e he => ?_)]
      rcases hlate e he with hpeer | hnumber | hstate
      · exact .inr (.inl hpeer)
      · exact .inr (.inr hnumber)
      · refine .inl fun hin => ?_
        obtain ⟨limit, hawaiting⟩ := awaiting_of_in hin
        exact hstate limit hawaiting
    · rw [harrived hk, takeArrived_of_late (t := s.peerTaken rest) hid hp hlate]
      refine ⟨fun x held advised hx hst => ?_, fun hother => ?_⟩
      · rw [lateArrived_of_lost (s := s.peerTaken rest) hx hst]
        rfl
      · rw [lateArrived_of_other (s := s.peerTaken rest) hother]
  · have hdue : e.abandoned = true := by rw [TransferEntry.abandoned, hst]; rfl
    have hdirection : e.direction = .in_ := by rw [TransferEntry.direction, hst]
    have hends : s.inboundTransitEnds e.id = s.dropCartridge e .abandoned := by
      simp only [State.inboundTransitEnds, he, hdue, if_true]
    change Host.Outcome.next (s.inboundTransitEnds e.id) = _
    rw [hends, dropCartridge_eq, hdirection]

/-! ### The transit limit -/

/-- A TRANSFERRING record that is lost (R7, R152). -/
theorem loseRecord_of_transferring {x : Record} {peer : PeerField} {restore : Restore} (hst : x.st = .transferring peer restore)
    (reason : SuspectReason) (minute : Nat) :
    loseRecord reason minute x = x.enter (.suspect none restore.hold reason) minute := by
  simp only [loseRecord, hst]

/-- Settles O41: the entry named is overdue, and its record is lost. -/
theorem overdueTransferIsSuspect : Obligations.OverdueTransferIsSuspect := by
  intro s e x peer restore he hst hx hrecord
  have hdue : e.overdue = true := by rw [TransferEntry.overdue, hst]; rfl
  have hends : s.transitLimitEnds e.id = s.expireTransit e := by
    simp only [State.transitLimitEnds, he, hdue, if_true]
  change Host.Outcome.next (s.transitLimitEnds e.id) = _
  rw [hends]
  simp only [State.expireTransit, hx, loseRecord_of_transferring hrecord]
  rfl

end Sys2Proof.Machine

namespace Sys2Proof.Machine

/-! ### Messages screened (R145) -/

theorem peerRoom_iff {s : State} : s.peerRoom = true ↔ s.line.peerOut.length < 16 := decide_eq_true_iff

/-- A transfer message waits while the peer output queue is full. Taken, it is discarded if it is addressed to more than one station, or
where its row does nothing with it. -/
theorem taken_peer_screened {s : State} {m : PeerIn} {rest : List PeerIn} (hs : s.settled = true) (hin : s.line.peerIn = m :: rest)
    {kind : PeerKind} (hk : m.kind = kind) {act : PeerIn → State → State} {broken : Prop} (hbroken : broken → ∀ t, act m t = t) :
    (16 ≤ s.line.peerOut.length → taken s (fun t => t.takePeer kind act) = .next s) ∧
      (s.line.peerOut.length < 16 → 16 ≤ m.dest ∨ broken →
        taken s (fun t => t.takePeer kind act) = .next (s.peerTaken rest)) := by
  refine ⟨fun hfull => ?_, fun hroom hscreened => ?_⟩
  · have hno : s.peerRoom = false := Bool.eq_false_iff.2 fun k => Nat.not_lt.2 hfull (peerRoom_iff.1 k)
    rw [taken_of_settled hs, State.takePeer, hno]
    rfl
  · by_cases hd : m.dest ≤ 15
    · rw [taken_peer ⟨hs, hroom, hin⟩ hk hd, hbroken (hscreened.resolve_left (by omega))]
    · have hyes : s.peerRoom = true := peerRoom_iff.2 hroom
      rw [taken_of_settled hs]
      simp only [State.takePeer, hyes, hin, hk, hd, if_true, if_false, State.popPeer, List.drop_one, List.tail_cons]
      rfl

section
variable {m : PeerIn}

theorem takeOffer_of_broken (h : m.payload.length ≠ 17) (t : State) : takeOffer m t = t := by
  simp only [takeOffer, offerOf, if_neg h]

/-- A payload that is no TAKE, WITHDRAW or ARRIVED: another length, or a malformed identifier. -/
theorem transferOf_eq_none {p : List Byte} (h : p.length ≠ 11 ∨ identOk (p.take 10) = false) : transferOf p = none := by
  refine if_neg ?_
  rintro ⟨hl, hid⟩
  rcases h with h | h
  · exact h hl
  · exact Bool.eq_false_iff.1 h hid

theorem takeTake_of_broken (h : m.payload.length ≠ 11 ∨ identOk (m.payload.take 10) = false) (t : State) : takeTake m t = t := by
  simp only [takeTake, transferOf_eq_none h]

theorem takeWithdraw_of_broken (h : m.payload.length ≠ 11 ∨ identOk (m.payload.take 10) = false) (t : State) :
    takeWithdraw m t = t := by
  simp only [takeWithdraw, transferOf_eq_none h]

theorem takeArrived_of_broken (h : m.payload.length ≠ 11 ∨ identOk (m.payload.take 10) = false) (t : State) :
    takeArrived m t = t := by
  simp only [takeArrived, transferOf_eq_none h]

theorem takeDecline_of_broken (h : m.payload.length ≠ 12 ∨ identOk (m.payload.take 10) = false) (t : State) :
    takeDecline m t = t := by
  have hnone : declineOf m.payload = none := by
    refine if_neg ?_
    rintro ⟨hl, hid⟩
    rcases h with h | h
    · exact h hl
    · exact Bool.eq_false_iff.1 h hid
  simp only [takeDecline, hnone]

end

/-! ### OFFER -/

/-- The fields of a whole OFFER. -/
theorem offerOf_append {id : Ident} (n presence h1 h0 e2 e1 e0 : Byte) (hl : id.length = 10) :
    offerOf (id ++ [n, presence, h1, h0, e2, e1, e0]) = some ⟨id, n.toNat, presence.toNat, 256 * h1.toNat + h0.toNat,
      65536 * e2.toNat + 256 * e1.toNat + e0.toNat⟩ := by
  obtain ⟨a, b, c, d, e, f, g, i, j, k, rfl⟩ := ten_bytes hl
  have hthree : 256 * (256 * e2.toNat + e1.toNat) + e0.toNat = 65536 * e2.toNat + 256 * e1.toNat + e0.toNat := by omega
  simp [offerOf, slice, byteAt, ofBytes, hthree]

/-- A whole OFFER that stands ready is declined with the reason that R156 gives. -/
theorem takeOffer_of_declined {m : PeerIn} {t : State} {o : OfferFields} {reason : DeclineReason} (hm : offerOf m.payload = some o)
    (h : t.declineReason o = some reason) : takeOffer m t = t.queuePeer ⟨m.sender, .decline o.id o.number reason⟩ := by
  simp only [takeOffer, hm, h]

/-- A whole OFFER with no reason to decline it begins an inbound transfer (R157). -/
theorem takeOffer_of_accepted {m : PeerIn} {t : State} {o : OfferFields} (hm : offerOf m.payload = some o)
    (h : t.declineReason o = none) : takeOffer m t = t.beginInbound o m.sender := by
  simp only [takeOffer, hm, h]

section
variable {s : State} {o : OfferFields}

theorem declineReason_malformed (h : identOk o.id = false ∨ 3 < o.presence) : s.declineReason o = some .malformed :=
  if_pos (by simpa using h)

/-- The reason of a well-formed OFFER is judged on the state (R156). -/
theorem declineReason_of_wellFormed (hid : identOk o.id = true) (hpresence : o.presence ≤ 3) : s.declineReason o =
    if 2 ≤ seqCode s.fire.seq then some .zoneAlarm
    else if s.known o.id then some .duplicate
    else if 1024 ≤ s.occupancy then some .registerFull
    else if 8 ≤ s.transfer.entries.length then some .tableFull
    else none := by
  have hformed : ¬(!identOk o.id || decide (3 < o.presence)) = true := by simp [hid, hpresence]
  rw [State.declineReason, if_neg hformed]
  exact if_congr (inAlarm_iff _) rfl rfl

/-- The conditions of R156 in their order, each with its reason. -/
theorem declineReason_of_conditions {reason : DeclineReason}
    (h : reason = .malformed ∧ (identOk o.id = false ∨ 3 < o.presence) ∨
      identOk o.id = true ∧ o.presence ≤ 3 ∧
        (reason = .zoneAlarm ∧ 2 ≤ seqCode s.fire.seq ∨
          seqCode s.fire.seq < 2 ∧
            (reason = .duplicate ∧ s.known o.id = true ∨
              s.known o.id = false ∧
                (reason = .registerFull ∧ 1024 ≤ s.occupancy ∨
                  s.occupancy < 1024 ∧ reason = .tableFull ∧ 8 ≤ s.transfer.entries.length)))) :
    s.declineReason o = some reason := by
  rcases h with ⟨rfl, hbad⟩ | ⟨hid, hpresence, h⟩
  · exact declineReason_malformed hbad
  rw [declineReason_of_wellFormed hid hpresence]
  rcases h with ⟨rfl, halarm⟩ | ⟨hquiet, h⟩
  · rw [if_pos halarm]
  rw [if_neg (Nat.not_le.2 hquiet)]
  rcases h with ⟨rfl, hknown⟩ | ⟨hnew, h⟩
  · rw [if_pos hknown]
  rw [if_neg (Bool.eq_false_iff.1 hnew)]
  rcases h with ⟨rfl, hfull⟩ | ⟨hroom, rfl, htable⟩
  · rw [if_pos hfull]
  · rw [if_neg (Nat.not_le.2 hroom), if_pos htable]

theorem declineReason_none (hid : identOk o.id = true) (hpresence : o.presence ≤ 3) (hseq : seqCode s.fire.seq < 2)
    (hnew : s.known o.id = false) (hroom : s.occupancy < 1024) (htable : s.transfer.entries.length < 8) :
    s.declineReason o = none := by
  rw [declineReason_of_wellFormed hid hpresence, if_neg (Nat.not_le.2 hseq), if_neg (Bool.eq_false_iff.1 hnew),
    if_neg (Nat.not_le.2 hroom), if_neg (Nat.not_le.2 htable)]

/-- The exposure of an OFFER whose presence bits are all known. -/
theorem exposed_eq (h : o.presence ≤ 3) : o.exposed = if o.presence / 2 = 1 then some o.exposure else none := by
  have hbit : o.presence / 2 % 2 = o.presence / 2 := by omega
  rw [OfferFields.exposed, hbit]

end

/-- Settles O37: each kind screened by its own layout, then a whole OFFER judged on the state without it. -/
theorem offerIsDeclinedOrBegun : Obligations.OfferIsDeclinedOrBegun := by
  refine ⟨fun s m rest c hs hin hrow => ?_, fun s m rest id n presence h1 h0 e2 e1 e0 h hk hd hl hp => ?_⟩
  · rcases hrow with ⟨rfl, hk⟩ | ⟨rfl, hk⟩ | ⟨rfl, hk⟩ | ⟨rfl, hk⟩ | ⟨rfl, hk⟩ <;> rw [hk]
    · exact taken_peer_screened hs hin hk fun hb => takeOffer_of_broken (hb.resolve_right fun k => k.1 rfl)
    · exact taken_peer_screened hs hin hk fun hb => takeTake_of_broken (hb.imp_right And.right)
    · exact taken_peer_screened hs hin hk fun hb => takeDecline_of_broken (hb.imp_right And.right)
    · exact taken_peer_screened hs hin hk fun hb => takeWithdraw_of_broken (hb.imp_right And.right)
    · exact taken_peer_screened hs hin hk fun hb => takeArrived_of_broken (hb.imp_right And.right)
  · have hoffer : exec .offer s = .next (takeOffer m (s.peerTaken rest)) := taken_peer h hk hd
    have hfields := offerOf_append n presence h1 h0 e2 e1 e0 hl
    rw [← hp] at hfields
    rw [hoffer]
    refine ⟨fun reason hreason => ?_, fun hid hpresence hseq hnew hroom htable => ?_⟩
    · rw [takeOffer_of_declined hfields (declineReason_of_conditions (s := s.peerTaken rest) hreason)]
      rfl
    · rw [takeOffer_of_accepted hfields (declineReason_none (s := s.peerTaken rest) hid hpresence hseq hnew hroom htable),
        State.beginInbound, exposed_eq hpresence]
      rfl

end Sys2Proof.Machine

namespace Sys2Proof.Machine

/-! ### The destination of a MOVE (R146) -/

/-- With a beacon held of it, a destination is unavailable by the five conditions. -/
theorem unavailable_of_beacon {s : State} {dest : Nat} {p : PeerEntry} {b : Beacon} (hp : s.line.peers[dest]? = some p)
    (hb : p.beacon = some b) : s.unavailable dest = true ↔ dest = s.line.address ∨ p.presence ≠ .present ∨
      b.configured = false ∨ 3 ≤ seqCode b.fire ∨ p.confirmed = true := by
  simp [State.unavailable, State.peer, hp, hb, or_assoc]

/-- A destination that no beacon tells of is unavailable. -/
theorem unavailable_of_unheard {s : State} {dest : Nat} (h : ∀ p, s.line.peers[dest]? = some p → p.beacon = none) :
    s.unavailable dest = true := by
  unfold State.unavailable State.peer
  cases hp : s.line.peers[dest]? with
  | none => rfl
  | some p =>
    simp only [h p hp]

/-- The own address, and a peer that R146 rules out, are unavailable. -/
theorem unavailable_of_condition {s : State} {dest : Nat}
    (h : dest = s.line.address ∨ ∃ p, s.line.peers[dest]? = some p ∧ (p.presence ≠ .present ∨
      (∃ b, p.beacon = some b ∧ (b.configured = false ∨ 3 ≤ seqCode b.fire)) ∨ p.confirmed = true)) :
    s.unavailable dest = true := by
  by_cases hheard : ∃ p b, s.line.peers[dest]? = some p ∧ p.beacon = some b
  · obtain ⟨p, b, hp, hb⟩ := hheard
    refine (unavailable_of_beacon hp hb).2 ?_
    rcases h with hown | ⟨q, hq, hcondition⟩
    · exact .inl hown
    cases hp.symm.trans hq
    rcases hcondition with habsent | ⟨c, hc, hbarred⟩ | hconfirmed
    · exact .inr (.inl habsent)
    · cases hb.symm.trans hc
      exact .inr (.inr (hbarred.imp_right .inl))
    · exact .inr (.inr (.inr (.inr hconfirmed)))
  · refine unavailable_of_unheard fun p hp => ?_
    cases hb : p.beacon with
    | none => rfl
    | some b => exact absurd ⟨p, b, hp, hb⟩ hheard

theorem peerFull_of_beacon {s : State} {dest : Nat} {p : PeerEntry} {b : Beacon} (hp : s.line.peers[dest]? = some p)
    (hb : p.beacon = some b) : s.peerFull dest = true ↔ b.registerCount = 1024 := by
  simp [State.peerFull, State.peer, hp, hb, registerCapacity]

/-! ### MOVE -/

/-- A record that is neither SHELVED nor CONDITIONING has no restore field. -/
theorem restoreField_eq_none {x : Record} (hshelved : x.st.code ≠ 0) (hconditioning : x.st.code ≠ 5) : x.restoreField = none := by
  unfold Record.restoreField
  split
  · rename_i hst
    exact absurd (by rw [hst]; rfl) hshelved
  · rename_i hst
    exact absurd (by rw [hst]; rfl) hconditioning
  · rfl

/-- The restore field of a SHELVED or CONDITIONING record (R7). -/
theorem restoreField_eq_some {x : Record} {restore : Restore}
    (h : ∃ p, x.st = .shelved p ∧ restore = ⟨.shelved, p⟩ ∨ ∃ h, x.st = .conditioning p h ∧ restore = ⟨.conditioning h, p⟩) :
    x.restoreField = some restore := by
  rcases h with ⟨p, ⟨hst, rfl⟩ | ⟨hold, hst, rfl⟩⟩
  · rw [Record.restoreField, hst]
  · rw [Record.restoreField, hst]

theorem not_inAlarm {q : Seq} (h : seqCode q < 2) : ¬q.inAlarm = true := fun k => Nat.not_le.2 h ((inAlarm_iff q).1 k)

/-- The form of a MOVE is in order: its identifier well formed, its destination a station (R146). -/
theorem move_inForm {id : Ident} {dest : Nat} (hok : identOk id = true) (hdest : dest ≤ 15) :
    ¬(!identOk id || decide (15 < dest)) = true := by
  simp [hok, hdest]

section
variable {r : Request} {id : Ident} {dest : Byte} {t : State} (hl : id.length = 10) (hr : r.payload = 10 :: (id ++ [dest]))
include hl hr

/-- The identifier and the destination that a MOVE carries (11.2). -/
theorem move_fields : slice (requestFields r.payload) 0 10 = id ∧ byteAt (requestFields r.payload) 10 = dest.toNat := by
  rw [hr]
  exact ⟨slice_append id _ _ hl, byteAt_append id _ 10 0 hl⟩

theorem moveReply_malformed (h : identOk id = false ∨ 15 < dest.toNat) : moveReply r t = t.refuse .malformed := by
  obtain ⟨hid, hdest⟩ := move_fields hl hr
  simp only [moveReply, hid, hdest]
  exact if_pos (by simpa using h)

variable (hok : identOk id = true) (hdest : dest.toNat ≤ 15)
include hok hdest

theorem moveReply_zoneAlarm (h : 2 ≤ seqCode t.fire.seq) : moveReply r t = t.refuse .zoneAlarm := by
  obtain ⟨hid, hbyte⟩ := move_fields hl hr
  simp only [moveReply, hid, hbyte, if_neg (move_inForm hok hdest)]
  exact if_pos ((inAlarm_iff _).2 h)

variable (hseq : seqCode t.fire.seq < 2)
include hseq

theorem moveReply_noSuchRecord (hx : t.find id = none) : moveReply r t = t.refuse .noSuchRecord := by
  obtain ⟨hid, hbyte⟩ := move_fields hl hr
  simp only [moveReply, hid, hbyte, if_neg (move_inForm hok hdest), if_neg (not_inAlarm hseq), hx]

/-- MOVE of a record that is there, where the zone is in no alarm: by the record, then the destination, the table and the queue. -/
theorem moveReply_of_found {x : Record} (hx : t.find id = some x) :
    (x.restoreField = none → moveReply r t = t.refuse .wrongState) ∧
      ∀ restore, x.restoreField = some restore → moveReply r t =
        if t.unavailable dest.toNat then t.refuse .peerUnavailable
        else if t.peerFull dest.toNat then t.refuse .peerFull
        else if 8 ≤ t.transfer.entries.length then t.refuse .transferTableFull
        else if 16 ≤ t.line.peerOut.length then t.refuse .queueFull
        else ⟨t.beginMove x restore dest.toNat, .done, [BitVec.ofNat 8 (t.beginMove x restore dest.toNat).transfer.number]⟩ := by
  obtain ⟨hid, hbyte⟩ := move_fields hl hr
  have hroom : (!t.peerRoom) = true ↔ 16 ≤ t.line.peerOut.length := by
    rw [Bool.not_eq_true', ← Bool.not_eq_true, peerRoom_iff, Nat.not_lt]
  refine ⟨fun hnone => ?_, fun restore hsome => ?_⟩
  · simp only [moveReply, hid, hbyte, if_neg (move_inForm hok hdest), if_neg (not_inAlarm hseq), hx, hnone]
  · simp only [moveReply, hid, hbyte, if_neg (move_inForm hok hdest), if_neg (not_inAlarm hseq), hx, hsome, hroom, transferCapacity]

end

/-- Settles O19: the checks of R146 in their order, on the state with the request taken. -/
theorem moveBeginsAnOffer : Obligations.MoveBeginsAnOffer := by
  intro s r rest id dest x restore h hp hl hr
  have hk : requestKindOf r.payload = some .move := by rw [hr]; rfl
  have hw : layoutWhole .move (requestFields r.payload) = true := by simp [hr, requestFields, layoutWhole, hl]
  have refused {result : Result} (ho : moveReply r (s.popped rest) = (s.popped rest).refuse result) :
      exec .move s = .next (s.answered r rest 10 result []) := taken_unchanged h hp hk rfl hw ho
  refine ⟨fun hbad => refused (moveReply_malformed hl hr hbad),
    fun hok hdest halarm => refused (moveReply_zoneAlarm hl hr hok hdest halarm),
    fun hok hdest hseq hnone => refused (moveReply_noSuchRecord hl hr hok hdest hseq hnone),
    fun hok hdest hseq hx hshelved hconditioning => refused
      ((moveReply_of_found (t := s.popped rest) hl hr hok hdest hseq hx).1 (restoreField_eq_none hshelved hconditioning)),
    fun hok hdest hseq hx hrestore => ?_⟩
  have howner := (moveReply_of_found (t := s.popped rest) hl hr hok hdest hseq hx).2 restore (restoreField_eq_some hrestore)
  have barred (hbar : s.unavailable dest.toNat = true) : exec .move s = .next (s.answered r rest 10 .peerUnavailable []) :=
    refused (howner.trans (if_pos hbar))
  refine ⟨barred, fun hcondition => barred (unavailable_of_condition hcondition),
    fun p b hpeer hbeacon hother hpresent hconfigured hfire hunconfirmed => ?_⟩
  have havailable : ¬s.unavailable dest.toNat = true := by
    simp [unavailable_of_beacon hpeer hbeacon, hother, hpresent, hconfigured, hfire, hunconfirmed]
  have hfull := peerFull_of_beacon hpeer hbeacon
  have hreached := howner.trans (if_neg havailable)
  have hroomy (hcount : b.registerCount ≠ 1024) := hreached.trans (if_neg fun k => hcount (hfull.1 k))
  refine ⟨fun hcount => refused (hreached.trans (if_pos (hfull.2 hcount))),
    fun hcount htable => refused ((hroomy hcount).trans (if_pos htable)),
    fun hcount htable hqueue => refused ((hroomy hcount).trans ((if_neg (Nat.not_le.2 htable)).trans (if_pos hqueue))),
    fun hcount htable hqueue => ?_⟩
  have hbegun := (hroomy hcount).trans ((if_neg (Nat.not_le.2 htable)).trans (if_neg (Nat.not_le.2 hqueue)))
  exact ⟨_, rfl, taken_reply h .move hp hk rfl hw _ hbegun⟩

end Sys2Proof.Machine

namespace Sys2Proof.Machine

/-! ### What the own slot sent, finished (R166, R174, R180, R184, R187) -/

/-- The state in which what the station was sending is over, before its outcome is handed back (R166). -/
def State.sendingOver (s : State) : State := { s with line := { s.line with sending := none } }

/-- The state in which an answer is no longer being sent and has left its queue (R180). -/
def State.answerSent (s : State) : State := { s with line := { s.line with sending := none, answers := s.line.answers.drop 1 } }

/-- The notice that was sent takes the outcome on its source alone (R187). -/
theorem noticeOutcome_of_pending {s : State} {n : Nat} {x : PendingNotice} (h : s.pendingNotice n = some x) (o : SendOutcome) :
    s.noticeOutcome n o = { s with notices := ⟨s.notices.pending.set n (noticeAfter (s.records n) o x)⟩ } := by
  simp only [State.noticeOutcome, h]
  rfl

/-- The end of the sending of a notice, for any outcome (R187, R188). -/
theorem finishItem_notice {s : State} {n : Nat} {x : PendingNotice} (h : s.pendingNotice n = some x) (o : SendOutcome) :
    s.sendingOver.finishItem (.notice n) o = { s with
      line := { s.line with sending := none },
      notices := ⟨s.notices.pending.set n (noticeAfter (s.records n) o x)⟩ } :=
  noticeOutcome_of_pending (s := s.sendingOver) h o

/-- The item sent is the DONE of the RESET that waits (R184). -/
theorem isResetAnswer_answer (s : State) (a : Answer) :
    s.isResetAnswer (.answer a) = true ↔ s.request.resetWait.isSome ∧ a.kind = 15 ∧ a.result = .done := by
  have hkind : a.kind.toNat = requestKindCode .reset ↔ a.kind = 15 := by
    rw [← BitVec.toNat_inj]
    rfl
  simp only [State.isResetAnswer, Bool.and_eq_true, beq_iff_eq, hkind, and_assoc]

/-- With no RESET waiting, nothing sent is its answer (R184). -/
theorem isResetAnswer_of_no_wait {s : State} (h : s.request.resetWait = none) (item : SlotItem) : s.isResetAnswer item = false := by
  cases item with
  | answer a => simp only [State.isResetAnswer, h, Option.isSome_none, Bool.false_and]
  | beacon _ => rfl
  | notice _ => rfl
  | peer _ => rfl

/-- Any item but the DONE of a RESET that waits (R184). -/
theorem isResetAnswer_eq_false {s : State} {item : SlotItem}
    (h : ∀ a, item = .answer a → a.kind ≠ 15 ∨ a.result ≠ .done ∨ s.request.resetWait = none) : s.isResetAnswer item = false := by
  cases item with
  | answer a =>
    rw [Bool.eq_false_iff, Ne, isResetAnswer_answer]
    rintro ⟨hwait, hkind, hresult⟩
    rcases h a rfl with hno | hno | hno
    · exact hno hkind
    · exact hno hresult
    · rw [hno] at hwait
      cases hwait
  | beacon _ => rfl
  | notice _ => rfl
  | peer _ => rfl

/-- The warm reset that a RESET asked for takes effect while it waits (R184). -/
theorem requestedReset_of_wait {s : State} (h : s.request.resetWait.isSome) : s.requestedReset = s.warmReset .resetRequest := by
  obtain ⟨w, hw⟩ := Option.isSome_iff_exists.1 h
  rw [State.requestedReset, hw]

/-! ### Marks (R163, R164) -/

/-- A byte is the mark of the number it carries, and of no other (R189). -/
theorem markNumber_eq_some {mark : Byte} {n : Nat} :
    markNumber mark = some n ↔ n ≤ 9 ∧ mark = BitVec.ofNat 8 ((15 - n) * 16 + n) := by
  have hlt := mark.isLt
  rw [← BitVec.toNat_inj, BitVec.toNat_ofNat]
  simp only [markNumber, Option.ite_none_right_eq_some, Option.some.injEq]
  constructor
  · rintro ⟨⟨hhigh, hlow⟩, rfl⟩
    omega
  · rintro ⟨hn, hmark⟩
    rw [Nat.mod_eq_of_lt (by omega)] at hmark
    have hlow : mark.toNat % 16 = n := by omega
    omega

/-- The number a mark gives: the one it carries, or the own number plus one where it is no mark of any (R164). -/
theorem markGives_spec (s : State) (mark : Byte) :
    (∀ n, n ≤ 9 → mark = BitVec.ofNat 8 ((15 - n) * 16 + n) → s.markGives mark = n) ∧
      ((∀ n, n ≤ 9 → mark ≠ BitVec.ofNat 8 ((15 - n) * 16 + n)) → s.markGives mark = (s.line.cycle + 1) % 10) := by
  refine ⟨fun n hn hmark => ?_, fun hnone => ?_⟩
  · rw [State.markGives, markNumber_eq_some.2 ⟨hn, hmark⟩]
    rfl
  · have hno : markNumber mark = none := by
      rw [Option.eq_none_iff_forall_ne_some]
      intro n h
      obtain ⟨hn, hmark⟩ := markNumber_eq_some.1 h
      exact hnone n hn hmark
    rw [State.markGives, hno]
    rfl

theorem exec_cycleMark {s : State} (h : s.settled = true) (mark : Byte) : exec (.cycleMark mark) s = .next (s.hearMark mark) :=
  taken_of_settled h fun t => t.hearMark mark

theorem exec_cycleTimerExpiry {s : State} (h : s.settled = true) (mark : Byte) : exec (.cycleTimerExpiry mark) s =
    .next (({ s with line := { s.line with markSent := some (markByte ((s.line.cycle + 1) % 10)) } } : State).hearMark mark) :=
  taken_of_settled h fun t => t.cycleTimerEnds mark

theorem hearMark_idle {s : State} (h : s.line.sending = none) (mark : Byte) : s.hearMark mark = s.takeMark mark := by
  simp only [State.hearMark, h]

/-- A mark cuts short what is being sent: UNANSWERED, then taken, and for the DONE of a RESET that waits the warm reset (log 20). -/
theorem hearMark_sending {s : State} {sent : Sending} (h : s.line.sending = some sent) (mark : Byte) :
    s.hearMark mark = if s.isResetAnswer sent.item then ((s.sendingOver.finishItem sent.item .unanswered).takeMark mark).requestedReset
      else (s.sendingOver.finishItem sent.item .unanswered).takeMark mark := by
  simp only [State.hearMark, h]
  rfl

/-- Settles O26: the number by `markGives_spec`; what is being sent is cut short by `hearMark_sending`, item by item. -/
theorem marksSetTheCycleNumber : Obligations.MarksSetTheCycleNumber := by
  intro s mark h
  have hmarkSent : ({ s with line := { s.line with markSent := some (markByte ((s.line.cycle + 1) % 10)) } } : State).settled = true := h
  rw [exec_cycleMark h, exec_cycleMark hmarkSent, exec_cycleTimerExpiry h]
  refine ⟨fun hidle => ⟨s.markGives mark, (markGives_spec s mark).1, (markGives_spec s mark).2, ?_, ?_⟩, rfl,
    fun bytes conflict => ⟨fun b hs => ?_, fun m hs => ?_, fun n x hs hx hr => ?_, fun n x hs hx hr => ?_, fun a u hs hu => ?_⟩⟩
  · rw [hearMark_idle hidle]
    rfl
  · rw [hearMark_idle (s := { s with line := { s.line with markSent := some (markByte ((s.line.cycle + 1) % 10)) } }) hidle]
    rfl
  · rw [hearMark_sending hs]
    rfl
  · rw [hearMark_sending hs]
    rfl
  · rw [hearMark_sending hs, finishItem_notice hx, hr]
    rfl
  · rw [hearMark_sending hs, finishItem_notice hx, hr]
    rfl
  · have hcut : (s.sendingOver.finishItem (.answer a) .unanswered).takeMark mark = u := hu.symm
    rw [hearMark_sending hs, hcut]
    refine ⟨fun hother => ?_, fun hwait hkind hresult => ?_⟩
    · have hno : s.isResetAnswer (.answer a) = false :=
        isResetAnswer_eq_false fun b hb => by cases hb; tauto
      rw [if_neg (Bool.eq_false_iff.1 hno)]
    · have huwait : u.request.resetWait.isSome := by rw [hu]; exact hwait
      rw [if_pos ((isResetAnswer_answer s a).2 ⟨hwait, hkind, hresult⟩), requestedReset_of_wait huwait]

end Sys2Proof.Machine

namespace Sys2Proof.Machine

/-! ### The superframe end (R172) -/

/-- The superframe end at each place of the peer table, the own place not judged. -/
theorem superframeFrom_getElem? (own base : Nat) {l : List PeerEntry} {i : Nat} {p : PeerEntry} (h : l[i]? = some p) :
    (superframeFrom own base l)[i]? = some (p.superframe (base + i == own)) := by
  induction l generalizing base i with
  | nil => cases h
  | cons q l ih =>
    cases i with
    | zero =>
      cases h
      rfl
    | succ i =>
      rw [show base + (i + 1) = base + 1 + i by omega]
      exact ih (base + 1) h

theorem superframeFrom_length (own base : Nat) (l : List PeerEntry) : (superframeFrom own base l).length = l.length := by
  induction l generalizing base with
  | nil => rfl
  | cons p l ih => rw [superframeFrom, List.length_cons, List.length_cons, ih]

/-- Settles O28: the table by `superframeFrom_getElem?`. -/
theorem superframeEndCountsMissedBeacons : Obligations.SuperframeEndCountsMissedBeacons := by
  intro s hdue
  refine ⟨superframeFrom s.line.address 0 s.line.peers, congrArg _ (if_pos hdue), superframeFrom_length _ _ _, fun a p hp => ?_⟩
  rw [superframeFrom_getElem? _ _ hp, Nat.zero_add]
  simp only [PeerEntry.superframe, Bool.or_eq_true, beq_iff_eq, missedLimit]

end Sys2Proof.Machine

namespace Sys2Proof.Machine

/-! ### The end of the own slot (R166, R174) -/

theorem exec_slotEnd {s : State} (h : s.settled = true) (same accept refuse : Bool) :
    exec (.slotEnd same accept refuse) s = .next (s.slotEnds same accept refuse) :=
  taken_of_settled h fun t => t.slotEnds same accept refuse

/-- What read back as it was sent is finished with the outcome that the acceptance field gives (R166). -/
theorem slotEnds_same {s : State} {item : SlotItem} {bytes : List Byte} (h : s.line.sending = some ⟨item, bytes, false⟩)
    (accept refuse : Bool) : s.slotEnds true accept refuse =
      if s.isResetAnswer item then (s.sendingOver.finishItem item (slotOutcome true accept refuse)).requestedReset
      else s.sendingOver.finishItem item (slotOutcome true accept refuse) := by
  simp only [State.slotEnds, h]
  rfl

/-- What read back differently, at the end or as noted before, is UNANSWERED, and ADDRESS CONFLICT is emitted (R166, R174). -/
theorem slotEnds_differs {s : State} {item : SlotItem} {bytes : List Byte} {same conflict : Bool}
    (h : s.line.sending = some ⟨item, bytes, conflict⟩) (hdiffers : same = false ∨ conflict = true) (accept refuse : Bool) :
    s.slotEnds same accept refuse =
      let finished := (s.sendingOver.emit (.addressConflict s.line.address s.line.cycle none)).finishItem item .unanswered
      if s.isResetAnswer item then finished.requestedReset else finished := by
  have hsame : (same && !conflict) = false := by
    rcases hdiffers with rfl | rfl
    · rfl
    · exact Bool.and_false same
  have hreported : (s.emit (.addressConflict s.line.address s.line.cycle none)).sendingOver =
      s.sendingOver.emit (.addressConflict s.line.address s.line.cycle none) := by
    rw [emit_withNotices s]
    exact (emit_newLine s _ _).symm
  simp only [State.slotEnds, h, hsame]
  rw [← hreported]
  rfl

/-- Settles O35: `slotEnds_same` and `slotEnds_differs`, item by item. -/
theorem slotEndHandsTheOutcomeBack : Obligations.SlotEndHandsTheOutcomeBack := by
  intro s bytes accept refuse h
  simp only [exec_slotEnd h]
  refine ⟨fun hidle same => ?_, fun b hs => ?_, fun a hs hother => ?_, fun m hs => ?_, fun n x hs hx hr => ?_,
    fun n x hs hx hr => ?_, fun a hs hkind hresult hwait => ?_,
    fun item same conflict hs hdiffers => ⟨fun hother => ?_, fun a hitem hkind hresult hwait => ?_⟩⟩
  · simp only [State.slotEnds, hidle]
  · rw [slotEnds_same hs]
    rfl
  · have hno : s.isResetAnswer (.answer a) = false := isResetAnswer_eq_false fun b hb => by cases hb; exact hother
    rw [slotEnds_same hs, hno]
    rfl
  · rw [slotEnds_same hs]
    rfl
  · rw [slotEnds_same hs, finishItem_notice hx, hr]
    cases accept <;> cases refuse <;> rfl
  · rw [slotEnds_same hs, finishItem_notice hx, hr]
    rfl
  · have hpopped : s.answerSent.request.resetWait.isSome := hwait
    rw [slotEnds_same hs, if_pos ((isResetAnswer_answer s a).2 ⟨hwait, hkind, hresult⟩)]
    exact congrArg _ (requestedReset_of_wait hpopped)
  · rw [slotEnds_differs hs hdiffers, isResetAnswer_eq_false hother]
    rfl
  · subst hitem
    have hpopped : (s.answerSent.emit (.addressConflict s.line.address s.line.cycle none)).request.resetWait.isSome := by
      rw [State.emit_request]
      exact hwait
    have hfinished : (s.sendingOver.emit (.addressConflict s.line.address s.line.cycle none)).finishItem (.answer a) .unanswered =
        s.answerSent.emit (.addressConflict s.line.address s.line.cycle none) := by
      rw [emit_withNotices s.sendingOver]
      exact (emit_newLine s.sendingOver s.answerSent.line _).symm
    rw [slotEnds_differs hs hdiffers, if_pos ((isResetAnswer_answer s a).2 ⟨hwait, hkind, hresult⟩), hfinished]
    exact congrArg _ (requestedReset_of_wait hpopped)

/-! ### Address conflicts (R174) -/

theorem exec_addressConflict {s : State} (h : s.settled = true) (sign : ConflictSign) :
    exec (.addressConflict sign) s = .next (s.conflictShows sign) :=
  taken_of_settled h fun t => t.conflictShows sign

/-- A message in the own slot in which nothing was sent is reported with its kind (R174). -/
theorem hearOwnSlot_unused {s : State} {kind : Byte} {f : SlotFrame} (hused : s.line.slotUsed = false) (hf : frameOk kind f = true) :
    s.hearOwnSlot kind f = s.emit (.addressConflict s.line.address s.line.cycle (some kind)) := by
  rw [State.hearOwnSlot, hused, hf]
  rfl

/-- A message in the own slot that the station used, or that is not well formed, is not reported (R174). -/
theorem hearOwnSlot_passed {s : State} {kind : Byte} {f : SlotFrame} (h : s.line.slotUsed = true ∨ frameOk kind f = false) :
    s.hearOwnSlot kind f = s := by
  have hpassed : (s.line.slotUsed || !frameOk kind f) = true := by
    rcases h with h | h <;> simp [h]
  rw [State.hearOwnSlot, if_pos hpassed]

/-- Settles O33: what is heard by `hearOwnSlot_unused` and `hearOwnSlot_passed`, a read-back at the end of the slot by
`slotEnds_differs`. -/
theorem secondStationShowsAsConflict : Obligations.SecondStationShowsAsConflict := by
  intro s h
  simp only [exec_addressConflict h, exec_slotEnd h]
  refine ⟨fun kind f haligned hused hf => ?_, fun kind f hno => ?_, fun item bytes conflict hs => ?_, fun hidle => ?_,
    fun item bytes same accept refuse hs hwait => ?_⟩
  · rw [State.conflictShows, if_pos haligned, hearOwnSlot_unused hused hf]
  · rw [State.conflictShows]
    split
    · rename_i haligned
      rw [hearOwnSlot_passed (hno.resolve_left (by simp [haligned]))]
    · rfl
  · simp only [State.conflictShows, hs]
    rfl
  · simp only [State.conflictShows, hidle]
  · rw [slotEnds_differs hs (.inr rfl), isResetAnswer_of_no_wait hwait]
    rfl

end Sys2Proof.Machine

namespace Sys2Proof.Machine

/-! ### Messages heard, by their kind (R164, R167, R168) -/

/-- A row that brings a slot message hears it in its slot, as a message of its kind. -/
theorem exec_heard {s : State} (h : s.settled = true) {slot : Fin 16} {f : SlotFrame} {c : Instr} {kind : Byte}
    (hc : c = .beaconReceived slot f ∧ kind = 1 ∨ c = .requestReceived slot f ∧ kind = 2 ∨
      (∃ k, c = .peerMessageReceived slot k f ∧ kind = peerKindByte k) ∨
      (∃ k, c = .ignoredMessage slot k f ∧ kind = ignoredKindByte k) ∨ c = .unknownKindMessage slot kind f) :
    exec c s = .next (s.hearSlot slot.val kind f) := by
  rw [← taken_of_settled h fun t => t.hearSlot slot.val kind f]
  rcases hc with ⟨rfl, rfl⟩ | ⟨rfl, rfl⟩ | ⟨k, rfl, rfl⟩ | ⟨k, rfl, rfl⟩ | rfl <;> rfl

/-- A message that is not well formed is not judged (R167). -/
theorem hearOther_malformed (s : State) (slot : Nat) {kind : Byte} {f : SlotFrame} (h : frameOk kind f = false) :
    s.hearOther slot kind f = s.drive .neither := by
  rw [State.hearOther, h]
  rfl

/-- A message of another kind than BEACON is judged where it is addressed to this station (R167). -/
theorem hearOther_message (s : State) (slot : Nat) {kind : Byte} {f : SlotFrame} (hf : frameOk kind f = true) (hkind : kind.toNat ≠ 1) :
    s.hearOther slot kind f = if s.addressed slot f.dest.toNat then s.judgeMessage slot kind f else s.drive .neither := by
  rw [State.hearOther, if_pos hf]
  split
  · exact absurd ‹_› hkind
  · rfl

/-- A message of another kind than BEACON that is not addressed to this station drives nothing, well formed or not (R167). -/
theorem hearOther_unaddressed {s : State} {slot : Nat} {kind : Byte} {f : SlotFrame} (haddressed : s.addressed slot f.dest.toNat = false)
    (hkind : kind.toNat ≠ 1) : s.hearOther slot kind f = s.drive .neither := by
  cases hf : frameOk kind f with
  | false => exact hearOther_malformed s slot hf
  | true => rw [hearOther_message s slot hf hkind, haddressed]; rfl

/-- A transfer message is judged as one (R168). -/
theorem judgeMessage_peer (s : State) (slot : Nat) (k : PeerKind) (f : SlotFrame) :
    s.judgeMessage slot (peerKindByte k) f = s.admitPeer slot k f := by
  cases k <;> rfl

/-- An ANSWER or a NOTICE is ignored (R168). -/
theorem judgeMessage_ignored (s : State) (slot : Nat) (k : IgnoredKind) (f : SlotFrame) :
    s.judgeMessage slot (ignoredKindByte k) f = s.drive .neither := by
  cases k <;> rfl

/-- A kind byte that names none of the nine kinds is refused (R168). -/
theorem judgeMessage_unknown (s : State) (slot : Nat) {kind : Byte} (f : SlotFrame) (h : kind.toNat = 0 ∨ 9 < kind.toNat) :
    s.judgeMessage slot kind f = s.drive .refuse := by
  have hno : peerKindOf kind = none := by
    unfold peerKindOf
    split
    case h_6 => rfl
    all_goals omega
  unfold State.judgeMessage
  split
  case h_4 => rw [hno]
  all_goals omega

/-- A REQUEST is queued from an admitted sender where the queue has room (R168). -/
theorem requestAdmitted_iff (s : State) (slot : Nat) : (s.admitsSender slot && decide (s.line.requests.length < queueDepth)) = true ↔
    (s.configured = false ∨ s.request.gateway = some slot) ∧ s.line.requests.length < 8 := by
  rw [State.admitsSender, Bool.and_eq_true, Bool.or_eq_true, Bool.not_eq_true', beq_iff_eq, decide_eq_true_iff, queueDepth]

theorem admitRequest_of_room {s : State} {slot : Nat} {f : SlotFrame} (hsender : s.configured = false ∨ s.request.gateway = some slot)
    (hroom : s.line.requests.length < 8) : s.admitRequest slot f = { s with line := { s.line with
      requests := s.line.requests ++ [⟨slot, f.tag, f.payload⟩], acceptance := .accept } } :=
  if_pos ((requestAdmitted_iff s slot).2 ⟨hsender, hroom⟩)

theorem admitRequest_refused {s : State} {slot : Nat} {f : SlotFrame}
    (h : ¬(s.configured = false ∨ s.request.gateway = some slot) ∨ 8 ≤ s.line.requests.length) : s.admitRequest slot f = s.drive .refuse := by
  refine if_neg fun hadmitted => ?_
  obtain ⟨hsender, hroom⟩ := (requestAdmitted_iff s slot).1 hadmitted
  exact h.elim (fun hno => hno hsender) (Nat.not_le.2 hroom)

/-- A transfer message is queued at a configured station where the queue has room (R168). -/
theorem peerAdmitted_iff (s : State) : (s.configured && decide (s.line.peerIn.length < queueDepth)) = true ↔
    s.configured = true ∧ s.line.peerIn.length < 8 := by
  rw [Bool.and_eq_true, decide_eq_true_iff, queueDepth]

theorem admitPeer_of_room {s : State} {slot : Nat} {k : PeerKind} {f : SlotFrame} (hconfigured : s.configured = true)
    (hroom : s.line.peerIn.length < 8) : s.admitPeer slot k f = { s with line := { s.line with
      peerIn := s.line.peerIn ++ [⟨k, slot, f.dest.toNat, f.payload⟩], acceptance := .accept } } :=
  if_pos ((peerAdmitted_iff s).2 ⟨hconfigured, hroom⟩)

theorem admitPeer_refused {s : State} {slot : Nat} {k : PeerKind} {f : SlotFrame} (h : s.configured = false ∨ 8 ≤ s.line.peerIn.length) :
    s.admitPeer slot k f = s.drive .refuse := by
  refine if_neg fun hadmitted => ?_
  obtain ⟨hconfigured, hroom⟩ := (peerAdmitted_iff s).1 hadmitted
  exact h.elim (fun hno => Bool.eq_false_iff.1 hno hconfigured) (Nat.not_le.2 hroom)

/-- The destinations by which a message is addressed to this station (R167). -/
theorem addressed_iff (s : State) (slot dest : Nat) : s.addressed slot dest = true ↔
    dest = s.line.address ∨ dest = 17 ∨ dest = 16 ∧ ∃ p, s.line.peers[slot]? = some p ∧ p.neighbour = true := by
  simp only [State.addressed, State.peer, destAll, destNeighbours, Bool.or_eq_true, Bool.and_eq_true, beq_iff_eq, or_assoc]
  cases s.line.peers[slot]? <;> simp

theorem peerKindByte_ne_one (k : PeerKind) : (peerKindByte k).toNat ≠ 1 := by cases k <;> decide

theorem ignoredKindByte_ne_one (k : IgnoredKind) : (ignoredKindByte k).toNat ≠ 1 := by cases k <;> decide

/-- Settles O32: each row hears its message by `exec_heard`; a message addressed to the station is judged by its kind. -/
theorem messagesAreAcceptedByKind : Obligations.MessagesAreAcceptedByKind := by
  refine ⟨fun s slot f h haligned hown => ?_, addressed_iff, fun s slot f c kind h hc => ?_⟩
  · have hother (kind : Byte) : s.hearSlot slot.val kind f = s.hearOther slot.val kind f := hearSlot_other kind f haligned hown
    have hrequest : exec (.requestReceived slot f) s = .next (s.hearOther slot.val 2 f) :=
      (exec_heard h (.inr (.inl ⟨rfl, rfl⟩))).trans (congrArg _ (hother 2))
    have hpeer (k : PeerKind) : exec (.peerMessageReceived slot k f) s = .next (s.hearOther slot.val (peerKindByte k) f) :=
      (exec_heard h (.inr (.inr (.inl ⟨k, rfl, rfl⟩)))).trans (congrArg _ (hother _))
    have hignored (k : IgnoredKind) : exec (.ignoredMessage slot k f) s = .next (s.hearOther slot.val (ignoredKindByte k) f) :=
      (exec_heard h (.inr (.inr (.inr (.inl ⟨k, rfl, rfl⟩))))).trans (congrArg _ (hother _))
    have hunknown (k : Byte) : exec (.unknownKindMessage slot k f) s = .next (s.hearOther slot.val k f) :=
      (exec_heard h (.inr (.inr (.inr (.inr rfl))))).trans (congrArg _ (hother _))
    simp only [hrequest, hpeer, hignored, hunknown]
    refine ⟨fun haddressed => ⟨fun hf => ?_, fun k hf => ?_, fun k hk hf => ?_⟩, fun k => ?_,
      fun haddressed => ⟨?_, fun k => ?_, fun k hk => ?_⟩⟩
    · have hjudged : s.hearOther slot.val 2 f = s.admitRequest slot.val f :=
        (hearOther_message s _ hf (by decide)).trans (if_pos haddressed)
      rw [hjudged]
      exact ⟨fun hsender hroom => by rw [admitRequest_of_room hsender hroom], fun hno => by rw [admitRequest_refused hno]; rfl⟩
    · rw [hearOther_message s _ hf (peerKindByte_ne_one k), if_pos haddressed, judgeMessage_peer]
      exact ⟨fun hconfigured hroom => by rw [admitPeer_of_room hconfigured hroom], fun hno => by rw [admitPeer_refused hno]; rfl⟩
    · rw [hearOther_message s _ hf (by omega), if_pos haddressed, judgeMessage_unknown s _ f hk]
      rfl
    · have hneither : s.hearOther slot.val (ignoredKindByte k) f = s.drive .neither := by
        cases hf : frameOk (ignoredKindByte k) f with
        | false => exact hearOther_malformed s _ hf
        | true => rw [hearOther_message s _ hf (ignoredKindByte_ne_one k), judgeMessage_ignored, ite_self]
      rw [hneither]
      rfl
    · rw [hearOther_unaddressed haddressed (by decide)]
      rfl
    · rw [hearOther_unaddressed haddressed (peerKindByte_ne_one k)]
      rfl
    · rw [hearOther_unaddressed haddressed (by omega)]
      rfl
  · rw [exec_heard h hc, State.hearSlot]
    refine ⟨fun hno => by rw [hno]; rfl, fun haligned hother hf => ?_, fun haligned hown => ?_⟩
    · rw [if_pos haligned, if_neg hother, hearOther_malformed s _ hf]
      rfl
    · rw [if_pos haligned, if_pos hown]
      exact ⟨fun hused hf => by rw [hearOwnSlot_unused hused hf], fun hpassed => by rw [hearOwnSlot_passed hpassed]⟩

end Sys2Proof.Machine

namespace Sys2Proof.Machine

/-! ### What the arbiter chooses (R170) -/

/-- The sources with a pending notice at a level: where none stands there, the list is empty. -/
theorem sourcesAt_eq_nil {levels : Nat → Option Nat} {level base : Nat} {l : List (Option PendingNotice)}
    (h : ∀ k y, l[k]? = some (some y) → levels (base + k) ≠ some level) : sourcesAt levels level base l = [] := by
  induction l generalizing base with
  | nil => rfl
  | cons n l ih =>
    have hhead : ¬(n.isSome && levels base == some level) = true := by
      cases n with
      | none => simp
      | some y => simpa using h 0 y rfl
    rw [sourcesAt, if_neg hhead]
    exact ih fun k y hk => by
      rw [Nat.add_assoc, Nat.add_comm 1 k]
      exact h (k + 1) y hk

/-- The sources with a pending notice at a level: the lowest stands first. -/
theorem head?_sourcesAt {levels : Nat → Option Nat} {level base i : Nat} {x : PendingNotice} {l : List (Option PendingNotice)}
    (hi : l[i]? = some (some x)) (hlevel : levels (base + i) = some level)
    (hleast : ∀ k y, k < i → l[k]? = some (some y) → levels (base + k) ≠ some level) :
    (sourcesAt levels level base l).head? = some (base + i) := by
  induction l generalizing base i with
  | nil => cases hi
  | cons n l ih =>
    cases i with
    | zero =>
      cases hi
      have hhead : ((some x).isSome && levels base == some level) = true := by simpa using hlevel
      rw [sourcesAt, if_pos hhead]
      rfl
    | succ i =>
      have hhead : ¬(n.isSome && levels base == some level) = true := by
        cases n with
        | none => simp
        | some y => simpa using hleast 0 y (Nat.succ_pos i) rfl
      have hshift (k : Nat) : base + (k + 1) = base + 1 + k := by omega
      rw [sourcesAt, if_neg hhead, hshift i]
      refine ih hi (by rw [← hshift]; exact hlevel) fun k y hk hy => ?_
      rw [← hshift]
      exact hleast (k + 1) y (Nat.succ_lt_succ hk) hy

/-- What stands pending on a source. -/
theorem pendingNotice_eq_some {s : State} {n : Nat} {x : PendingNotice} :
    s.pendingNotice n = some x ↔ s.notices.pending[n]? = some (some x) := Option.join_eq_some_iff

/-- No notice is chosen at a level at which none is pending. -/
theorem noticeAt_eq_none {s : State} {level : Nat} (h : ∀ k y, s.pendingNotice k = some y → s.level k ≠ some level) :
    s.noticeAt level = none := by
  rw [State.noticeAt, sourcesAt_eq_nil fun k y hk => by rw [Nat.zero_add]; exact h k y (pendingNotice_eq_some.2 hk)]
  rfl

/-- At a level the pending notice of the lowest source is chosen. -/
theorem noticeAt_eq_some {s : State} {level n : Nat} {x : PendingNotice} (hx : s.pendingNotice n = some x) (hlevel : s.level n = some level)
    (hleast : ∀ k y, k < n → s.pendingNotice k = some y → s.level k ≠ some level) : s.noticeAt level = some n := by
  rw [State.noticeAt, head?_sourcesAt (pendingNotice_eq_some.1 hx) (by rw [Nat.zero_add]; exact hlevel)
    fun k y hk hy => by rw [Nat.zero_add]; exact hleast k y hk (pendingNotice_eq_some.2 hy), Nat.zero_add]

/-- With nothing pending no later notice is chosen. -/
theorem laterNotice_eq_none {s : State} (h : ∀ n, s.pendingNotice n = none) : s.laterNotice = none := by
  have hno (level : Nat) : s.noticeAt level = none := noticeAt_eq_none fun k y hk => by rw [h k] at hk; cases hk
  rw [State.laterNotice, hno, hno, hno]
  rfl

/-- Of the notices at levels 1 to 3 the one at the first level is chosen, and there the one of the lowest source. -/
theorem laterNotice_eq_some {s : State} {n l : Nat} {x : PendingNotice} (hx : s.pendingNotice n = some x) (hl : s.level n = some l)
    (hlow : 1 ≤ l) (hhigh : l ≤ 3)
    (hfirst : ∀ k y j, s.pendingNotice k = some y → s.level k = some j → l < j ∨ l = j ∧ n ≤ k) : s.laterNotice = some n := by
  have hchosen : s.noticeAt l = some n := noticeAt_eq_some hx hl fun k y hk hy hj => by
    rcases hfirst k y l hy hj with h | ⟨-, h⟩ <;> omega
  have hbefore (j : Nat) (hj : j < l) : s.noticeAt j = none := noticeAt_eq_none fun k y hy hk => by
    rcases hfirst k y j hy hk with h | ⟨h, -⟩ <;> omega
  unfold State.laterNotice
  obtain rfl | rfl | rfl : l = 1 ∨ l = 2 ∨ l = 3 := by omega
  · rw [hchosen]
    rfl
  · rw [hbefore 1 (by decide), hchosen]
    rfl
  · rw [hbefore 1 (by decide), hbefore 2 (by decide), hchosen]
    rfl

/-! ### The start of the own slot (R164, R170) -/

theorem exec_slotStart {s : State} (h : s.settled = true) : exec .slotStart s = .next s.slotStarts := taken_of_settled h State.slotStarts

/-- A station that is not aligned, or that is sending, starts nothing (R164, log 2). -/
theorem slotStarts_idle {s : State} (h : s.line.aligned = false ∨ s.line.sending ≠ none) : s.slotStarts = s := by
  unfold State.slotStarts
  split
  · rename_i haligned hsending _
    rcases h with h | h
    · rw [h] at haligned
      cases haligned
    · exact absurd hsending h
  · rfl

/-- A station stays silent where the arbiter has nothing. -/
theorem slotStarts_silent {s : State} (h : s.arbitrate = none) : s.slotStarts = s := by
  unfold State.slotStarts
  split
  · rename_i hitem
    rw [h] at hitem
    cases hitem
  · rfl

/-- An aligned station with nothing being sent sends what the arbiter chooses. -/
theorem slotStarts_sends {s : State} {item : SlotItem} (haligned : s.line.aligned = true) (hsending : s.line.sending = none)
    (h : s.arbitrate = some item) : s.slotStarts = s.send item := by
  simp only [State.slotStarts, haligned, hsending, h]

/-- A notice sent takes its sending mark, its in-slot count at 0 (R187). -/
theorem send_notice {s : State} {n : Nat} {x : PendingNotice} (h : s.pendingNotice n = some x) : s.send (.notice n) = { s with
    notices := ⟨s.notices.pending.set n (some { x with sending := true, inSlot := 0 })⟩,
    line := { s.line with slotUsed := true, sending := some ⟨.notice n, s.itemBytes (.notice n), false⟩ } } := by
  simp only [State.send, State.markSending, h]
  rfl

/-- Settles O34: the arbiter's choice by `noticeAt_eq_some` and `laterNotice_eq_some`; what is sent by `slotStarts_sends`. -/
theorem arbiterFillsTheOwnSlot : Obligations.ArbiterFillsTheOwnSlot := by
  refine ⟨fun s h hno => by rw [exec_slotStart h, slotStarts_idle hno], fun s h haligned hsending => ?_⟩
  rw [exec_slotStart h]
  have sends {item : SlotItem} (hitem : s.arbitrate = some item) : s.slotStarts = s.send item := slotStarts_sends haligned hsending hitem
  refine ⟨fun hcycle => ?_, fun hcycle => ⟨fun n x hx hl hleast => ?_, fun hurgent => ⟨fun m rest hpeer => ?_,
    fun a rest hpeer hanswers => ?_, fun n x l hpeer hanswers hx hl hle hfirst => ?_, fun hpeer hanswers hnone => ?_⟩⟩⟩
  · have hitem : s.arbitrate = some (.beacon s.beaconContent) := if_pos hcycle
    have hbusy : (s.dock.session != .idle) = decide (s.dock.session ≠ .idle) := by
      rw [Bool.eq_iff_iff, bne_iff_ne, decide_eq_true_iff]
    rw [sends hitem, ← hbusy]
    rfl
  · have hitem : s.arbitrate = some (.notice n) := by
      simp only [State.arbitrate, if_neg hcycle, noticeAt_eq_some hx hl hleast]
    rw [sends hitem, send_notice hx]
  · have hitem : s.arbitrate = some (.peer m) := by
      simp only [State.arbitrate, if_neg hcycle, noticeAt_eq_none hurgent, hpeer]
    rw [sends hitem]
    rfl
  · have hitem : s.arbitrate = some (.answer a) := by
      simp only [State.arbitrate, if_neg hcycle, noticeAt_eq_none hurgent, hpeer, hanswers]
    rw [sends hitem]
    rfl
  · have hlow : 1 ≤ l := Nat.one_le_iff_ne_zero.2 fun hzero => hurgent n x hx (hzero ▸ hl)
    have hitem : s.arbitrate = some (.notice n) := by
      simp only [State.arbitrate, if_neg hcycle, noticeAt_eq_none hurgent, hpeer, hanswers, laterNotice_eq_some hx hl hlow hle hfirst]
    rw [sends hitem, send_notice hx]
  · have hurgent : s.noticeAt 0 = none := noticeAt_eq_none hurgent
    have hitem : s.arbitrate = none := by
      simp only [State.arbitrate, if_neg hcycle, hurgent, hpeer, hanswers, laterNotice_eq_none hnone]
    rw [slotStarts_silent hitem]

end Sys2Proof.Machine

namespace Sys2Proof.Machine

/-! ### The cyclic check and identifiers (R1, R65) -/

/-- The check over one more byte: its bits fed from the most significant one on (R65). -/
theorem crc_append_byte (body : List Byte) (b : Byte) : crc (body ++ [b]) =
    [7, 6, 5, 4, 3, 2, 1, 0].foldl (fun (register : Word16) (i : Nat) =>
      if register.msb = b.getLsbD i then register <<< 1 else (register <<< 1) ^^^ 4129) (crc body) := by
  have hbit : (fun (register : Word16) (i : Nat) => crcBit register (b.getLsbD i)) = fun (register : Word16) (i : Nat) =>
      if register.msb = b.getLsbD i then register <<< 1 else (register <<< 1) ^^^ 4129 := by
    funext register i
    simp only [crcBit, bne_iff_ne, ne_eq, ite_not]
    rfl
  rw [crc, List.foldl_append, List.foldl_cons, List.foldl_nil, crcByte, hbit]
  rfl

theorem identOk_iff (id : Ident) : identOk id = true ↔ id.length = 10 ∧
    ∀ b ∈ id, 48 ≤ b.toNat ∧ b.toNat ≤ 57 ∨ 65 ≤ b.toNat ∧ b.toNat ≤ 90 := by
  simp only [identOk, identChar, Bool.and_eq_true, Bool.or_eq_true, beq_iff_eq, List.all_eq_true, decide_eq_true_eq]

/-! ### Numbers written and read back -/

theorem ofNat_ofBytes2 (x : Word16) : BitVec.ofNat 16 (ofBytes (toBytes 2 x.toNat)) = x := by
  rw [ofBytes2 _ x.isLt, BitVec.ofNat_toNat, BitVec.setWidth_eq]

theorem ofNat_ofBytes3 (x : BitVec 24) : BitVec.ofNat 24 (ofBytes (toBytes 3 x.toNat)) = x := by
  rw [ofBytes3 _ (Nat.le_of_lt_succ x.isLt), BitVec.ofNat_toNat, BitVec.setWidth_eq]

theorem ofNat_ofBytes4 (x : BitVec 32) : BitVec.ofNat 32 (ofBytes (toBytes 4 x.toNat)) = x := by
  rw [ofBytes4 _ x.isLt, BitVec.ofNat_toNat, BitVec.setWidth_eq]

/-- A number below 256 as a byte. -/
theorem toNat_byte {n : Nat} (h : n < 256) : (BitVec.ofNat 8 n).toNat = n := by rw [BitVec.toNat_ofNat, Nat.mod_eq_of_lt h]

/-- A signed quantity of two bytes is read back in two's complement. -/
theorem signedOf_signedBytes {t : Int} (hlow : -32768 ≤ t) (hhigh : t ≤ 32767) : signedOf (signedBytes t) = t := by
  have hlength : 8 * (signedBytes t).length = 16 := by rw [signedBytes, toBytes_length]
  rw [signedOf, hlength, signedBytes, ofNat_ofBytes2, BitVec.toInt_ofInt]
  exact Int.bmod_eq_of_le (by omega) (by omega)

/-! ### Case frames read back (R191, 11.4) -/

/-- A frame on the link is read by its kind and its body. -/
theorem caseFrameOf_linkFrame {kind : Nat} {body : List Byte} (hkind : kind < 256) (hbody : body.length < 65536) :
    caseFrameOf (linkFrame kind body) = caseBodyOf kind body := by
  obtain ⟨head, hhead⟩ : ∃ head, head = BitVec.ofNat 8 kind :: (toBytes 2 body.length ++ body) := ⟨_, rfl⟩
  have hframe : linkFrame kind body = head ++ toBytes 2 (crc head).toNat := by rw [hhead]; rfl
  have hheadLength : head.length = body.length + 3 := by
    rw [hhead, List.length_cons, List.length_append, toBytes_length]
    omega
  have hlength : (linkFrame kind body).length = body.length + 5 := by
    rw [hframe, List.length_append, hheadLength, toBytes_length]
  have hread : slice (linkFrame kind body) 3 body.length = body := List.take_left' rfl
  have hcount : slice (linkFrame kind body) 1 2 = toBytes 2 body.length := rfl
  have hchecked : (linkFrame kind body).take (body.length + 3) = head := by rw [hframe]; exact List.take_left' hheadLength
  have hcheck : (linkFrame kind body).drop (body.length + 3) = toBytes 2 (crc head).toNat := by
    rw [hframe]
    exact List.drop_left' hheadLength
  have hkindByte : byteAt (linkFrame kind body) 0 = kind := toNat_byte hkind
  simp only [caseFrameOf, hlength, Nat.add_sub_cancel, show body.length + 5 - 2 = body.length + 3 by omega, hread, hcount, hchecked,
    hcheck, hkindByte, ofBytes2 _ hbody, ofNat_ofBytes2]
  exact if_pos ⟨Nat.le_add_left _ _, trivial, trivial⟩

theorem length_intervalBytes (i : RawInterval) : (intervalBytes i).length = 5 := rfl

theorem intervalOf_intervalBytes (i : RawInterval) : intervalOf (intervalBytes i) = i := by
  have hrh : slice (intervalBytes i) 1 2 = toBytes 2 i.rh.toNat := rfl
  have htemperature : slice (intervalBytes i) 3 2 = toBytes 2 i.temperature.toNat := rfl
  rw [intervalOf, hrh, htemperature, ofNat_ofBytes2, ofNat_ofBytes2]
  rfl

/-- The intervals of an IDENTITY are read back from its body. -/
theorem chunks_intervals (intervals : List RawInterval) :
    (chunks 5 intervals.length (intervals.flatMap intervalBytes)).map intervalOf = intervals := by
  have hfive : ∀ x ∈ intervals.map intervalBytes, x.length = 5 := by
    intro x hx
    obtain ⟨i, -, rfl⟩ := List.mem_map.1 hx
    exact length_intervalBytes i
  have hchunks := chunks_flatten hfive
  rw [List.length_map] at hchunks
  rw [List.flatMap_def, hchunks, List.map_map, show intervalOf ∘ intervalBytes = id from funext intervalOf_intervalBytes, List.map_id]

/-- The body of an IDENTITY (11.4). -/
def identityBody (caseId : BitVec 32) (badge : BitVec 24) (count : Word16) (intent : Byte) (intervals : List RawInterval) : List Byte :=
  toBytes 4 caseId.toNat ++ toBytes 3 badge.toNat ++ toBytes 2 count.toNat ++ [intent, BitVec.ofNat 8 intervals.length] ++
    intervals.flatMap intervalBytes

section
variable (caseId : BitVec 32) (badge : BitVec 24) (count : Word16) (intent : Byte) (intervals : List RawInterval)

theorem length_identityBody : (identityBody caseId badge count intent intervals).length = 11 + 5 * intervals.length := by
  have hflat : (intervals.flatMap intervalBytes).length = 5 * intervals.length := by
    rw [List.length_flatMap, List.map_congr_left fun i _ => length_intervalBytes i, List.map_const', List.sum_replicate, smul_eq_mul,
      Nat.mul_comm]
  rw [identityBody, List.length_append, hflat]
  rfl

/-- An IDENTITY's fields stand at their places, and its intervals behind them. -/
theorem caseBodyOf_identityBody (h : intervals.length ≤ 255) :
    caseBodyOf 18 (identityBody caseId badge count intent intervals) = some (.identity caseId badge count intent intervals) := by
  have hcount : byteAt (identityBody caseId badge count intent intervals) 10 = intervals.length := toNat_byte (Nat.lt_succ_of_le h)
  have hlength := length_identityBody caseId badge count intent intervals
  have hcaseId : slice (identityBody caseId badge count intent intervals) 0 4 = toBytes 4 caseId.toNat := rfl
  have hbadge : slice (identityBody caseId badge count intent intervals) 4 3 = toBytes 3 badge.toNat := rfl
  have hnumber : slice (identityBody caseId badge count intent intervals) 7 2 = toBytes 2 count.toNat := rfl
  have hintent : (identityBody caseId badge count intent intervals).getD 9 0 = intent := rfl
  have hrest : (identityBody caseId badge count intent intervals).drop 11 = intervals.flatMap intervalBytes := rfl
  rw [caseBodyOf, hcount, hlength, if_pos ⟨Nat.le_add_right _ _, rfl⟩, hcaseId, hbadge, hnumber, hintent, hrest, ofNat_ofBytes4,
    ofNat_ofBytes3, ofNat_ofBytes2, chunks_intervals]

end

theorem caseBodyOf_echo (count : Byte) (digest : Word16) :
    caseBodyOf 21 (count :: toBytes 2 digest.toNat) = some (.echo count digest) := by
  have hread : caseBodyOf 21 (count :: toBytes 2 digest.toNat) =
      some (.echo count (BitVec.ofNat 16 (ofBytes (toBytes 2 digest.toNat)))) := rfl
  rw [hread, ofNat_ofBytes2]

theorem caseBodyOf_done (count : Word16) : caseBodyOf 22 (toBytes 2 count.toNat) = some (.done count) := by
  have hread : caseBodyOf 22 (toBytes 2 count.toNat) = some (.done (BitVec.ofNat 16 (ofBytes (toBytes 2 count.toNat)))) := rfl
  rw [hread, ofNat_ofBytes2]

/-- A well-formed case frame is read back as it was sent (R191). -/
theorem caseFrameOf_bytes {f : CaseFrame} (h : caseFrameOk f = true) : caseFrameOf f.bytes = some f := by
  cases f with
  | awake => exact caseFrameOf_linkFrame (by decide) (by decide)
  | identity caseId badge count intent intervals =>
    have hlength : intervals.length ≤ 255 := by
      simp only [caseFrameOk, Bool.and_eq_true, decide_eq_true_eq] at h
      exact h.2
    have hbody := length_identityBody caseId badge count intent intervals
    exact (caseFrameOf_linkFrame (by decide) (hbody.trans_lt (by omega))).trans (caseBodyOf_identityBody _ _ _ _ _ hlength)
  | scan cartridge =>
    have hten : cartridge.length = 10 := of_decide_eq_true h
    exact (caseFrameOf_linkFrame (by decide) (by omega)).trans (if_pos hten)
  | nothing => exact caseFrameOf_linkFrame (by decide) (by decide)
  | echo count digest => exact (caseFrameOf_linkFrame (by decide) (by rw [List.length_cons, toBytes_length]; decide)).trans (caseBodyOf_echo count digest)
  | done count => exact (caseFrameOf_linkFrame (by decide) (by rw [toBytes_length]; decide)).trans (caseBodyOf_done count)

/-! ### Beacons, probe answers and OFFERs read back (R189, R191, 11.1, 11.4) -/

theorem seqOfCode_seqCode (q : Seq) : seqOfCode (seqCode q) = some q := by cases q <;> rfl

theorem seqCode_le (q : Seq) : seqCode q ≤ 7 := by cases q <;> decide

theorem flagByte_le (b : Bool) : (flagByte b).toNat ≤ 1 := by cases b <;> decide

theorem flagByte_read (b : Bool) : ((flagByte b).toNat == 1) = b := by cases b <;> rfl

/-- A beacon in its ranges is read back as it was sent (R189). -/
theorem beaconOf_beaconBytes {b : Beacon} (h : b.registerCount ≤ 1024) : beaconOf (beaconBytes b) = some b := by
  have hcount : ofBytes (slice (beaconBytes b) 3 2) = b.registerCount := ofBytes2 _ (by omega)
  have hseq : byteAt (beaconBytes b) 1 = seqCode b.fire := toNat_byte (Nat.lt_of_le_of_lt (seqCode_le _) (by decide))
  have hflags : byteAt (beaconBytes b) 0 = (flagByte b.configured).toNat ∧ byteAt (beaconBytes b) 2 = (flagByte b.inBand).toNat ∧
      byteAt (beaconBytes b) 5 = (flagByte b.dockBusy).toNat ∧ byteAt (beaconBytes b) 6 = (flagByte b.excursionLatch).toNat :=
    ⟨rfl, rfl, rfl, rfl⟩
  obtain ⟨hconfigured, hinBand, hbusy, hlatch⟩ := hflags
  rw [beaconOf, hcount, hseq, hconfigured, hinBand, hbusy, hlatch,
    if_pos ⟨rfl, flagByte_le _, flagByte_le _, h, flagByte_le _, flagByte_le _⟩, seqOfCode_seqCode]
  simp only [Option.map_some, flagByte_read]

/-- A probe answer whose values are in range is read as that reading (R99, R191). -/
theorem probeReading_sent {k rh : Nat} {t : Int} (hk : k ≤ 4) (hrh : rh ≤ 1000) (hlow : -400 ≤ t) (hhigh : t ≤ 850) {body : List Byte}
    (hbody : body = BitVec.ofNat 8 k :: (toBytes 2 rh ++ signedBytes t)) :
    probeReading k (body ++ toBytes 2 (crc body).toNat) = some ⟨rh, t⟩ := by
  have hlength : body.length = 5 := by rw [hbody]; rfl
  have hwhole : (body ++ toBytes 2 (crc body).toNat).length = 7 := by rw [List.length_append, hlength]; rfl
  have hchecked : (body ++ toBytes 2 (crc body).toNat).take 5 = body := List.take_left' hlength
  have hcheck : (body ++ toBytes 2 (crc body).toNat).drop 5 = toBytes 2 (crc body).toNat := List.drop_left' hlength
  have hprobe : byteAt (body ++ toBytes 2 (crc body).toNat) 0 = k := by
    rw [hbody]
    exact toNat_byte (by omega)
  have hhumid : ofBytes (slice (body ++ toBytes 2 (crc body).toNat) 1 2) = rh := by
    rw [hbody]
    exact ofBytes2 rh (by omega)
  have hsigned : signedOf (slice (body ++ toBytes 2 (crc body).toNat) 3 2) = t := by
    rw [hbody]
    exact signedOf_signedBytes (by omega) (by omega)
  rw [probeReading, hhumid, hsigned, hprobe, hchecked, hcheck, ofNat_ofBytes2, if_pos ⟨hwhole, rfl, rfl, hrh, hlow, hhigh⟩]

/-- The presence byte of an OFFER: the hold in the lowest bit, the exposure in the next (11.1). -/
def offerPresence (hold exposure : Option Nat) : Nat := (if hold.isSome then 1 else 0) + (if exposure.isSome then 2 else 0)

theorem offerPresence_spec (hold exposure : Option Nat) : offerPresence hold exposure ≤ 3 ∧
    (offerPresence hold exposure % 2 = 1 ↔ hold.isSome) ∧ (offerPresence hold exposure / 2 % 2 = 1 ↔ exposure.isSome) := by
  cases hold <;> cases exposure <;> simp [offerPresence]

/-- An OFFER is read back as it was sent (11.1). -/
theorem offerOf_sent {id : Ident} {n : Nat} {hold exposure : Option Nat} (hid : id.length = 10) (hn : n < 256)
    (hhold : ∀ h, hold = some h → 1 ≤ h ∧ h < 65536) (hexposure : ∀ e, exposure = some e → e < 16777216) :
    ∃ o, offerOf (PeerBody.bytes (.offer id n hold exposure)) = some o ∧ o.id = id ∧ o.number = n ∧ o.presence ≤ 3 ∧
      o.heldFor = hold ∧ o.exposed = exposure := by
  obtain ⟨hthree, hfirst, hsecond⟩ := offerPresence_spec hold exposure
  have hread : offerOf (PeerBody.bytes (.offer id n hold exposure)) =
      some ⟨id, n, offerPresence hold exposure, hold.getD 0, exposure.getD 0⟩ := by
    have hholdBytes : ofBytes (toBytes 2 (hold.getD 0)) = hold.getD 0 := ofBytes2 _ (by cases hold <;> simp_all)
    have hexposureBytes : ofBytes (toBytes 3 (exposure.getD 0)) = exposure.getD 0 :=
      ofBytes3 _ (by cases exposure <;> simp_all; omega)
    obtain ⟨a, b, c, d, e, f, g, i, j, k, rfl⟩ := ten_bytes hid
    refine (if_pos rfl).trans (congrArg some ?_)
    rw [OfferFields.mk.injEq]
    exact ⟨rfl, toNat_byte hn, toNat_byte (Nat.lt_of_le_of_lt hthree (by decide)), hholdBytes, hexposureBytes⟩
  refine ⟨_, hread, rfl, rfl, hthree, ?_, ?_⟩
  · cases hold with
    | none => exact if_neg fun hboth => absurd (hfirst.1 hboth.1) (by decide)
    | some h => exact if_pos ⟨hfirst.2 rfl, Nat.one_le_iff_ne_zero.1 (hhold h rfl).1⟩
  · cases exposure with
    | none => exact if_neg fun hpresent => absurd (hsecond.1 hpresent) (by decide)
    | some e => exact if_pos (hsecond.2 rfl)

/-! ### Slot messages well formed (R189) -/

/-- The tests of R189. -/
theorem frameOk_iff (kind : Byte) (f : SlotFrame) : frameOk kind f = true ↔ f.dest.toNat ≤ 17 ∧ f.length.toNat ≤ 400 ∧
    f.payload.length = f.length.toNat ∧
    f.check = crc (kind :: f.dest :: (toBytes 2 f.tag.toNat ++ toBytes 2 f.length.toNat ++ f.payload)) ∧
    (kind = 1 → ∃ b, beaconOf f.payload = some b) := by
  have hbeacon : (kind != 1 || (beaconOf f.payload).isSome) = true ↔ (kind = 1 → ∃ b, beaconOf f.payload = some b) := by
    rw [Bool.or_eq_true, bne_iff_ne, Option.isSome_iff_exists, imp_iff_not_or]
  simp only [frameOk, Bool.and_eq_true, decide_eq_true_eq, beq_iff_eq, hbeacon, messageBody, and_assoc]
  rfl

/-- What is sent as a message of a kind from 2 to 9 is laid out by 11.1 and well formed (R189). -/
theorem messageBytes_sent {kind dest : Nat} {tag : Word16} {payload body : List Byte} (hlow : 2 ≤ kind) (hhigh : kind ≤ 9)
    (hdest : dest ≤ 17) (hpayload : payload.length ≤ 400)
    (hbody : body = BitVec.ofNat 8 kind :: BitVec.ofNat 8 dest :: (toBytes 2 tag.toNat ++ toBytes 2 payload.length ++ payload)) :
    messageBytes kind dest tag payload = body ++ toBytes 2 (crc body).toNat ∧
      frameOk (BitVec.ofNat 8 kind) ⟨BitVec.ofNat 8 dest, tag, BitVec.ofNat 16 payload.length, payload, crc body⟩ = true := by
  have hdestByte : (BitVec.ofNat 8 dest).toNat = dest := toNat_byte (by omega)
  have hlength : (BitVec.ofNat 16 payload.length).toNat = payload.length := by
    rw [BitVec.toNat_ofNat, Nat.mod_eq_of_lt (by omega)]
  have hkind : BitVec.ofNat 8 kind ≠ 1 := fun h => by
    have hone : kind = 1 := (toNat_byte (by omega)).symm.trans (congrArg BitVec.toNat h)
    omega
  refine ⟨?_, (frameOk_iff _ _).2 ⟨?_, ?_, ?_, ?_, fun h => absurd h hkind⟩⟩
  · rw [messageBytes, messageBody, hlength, ← hbody]
  · exact hdestByte.trans_le hdest
  · exact hlength.trans_le hpayload
  · exact hlength.symm
  · exact congrArg crc (by rw [hbody, hlength])

end Sys2Proof.Machine

namespace Sys2Proof.Machine

/-! ### Codes: the place of a name in its list (11.1, 11.3, 11.4) -/

/-- A name at a place of a list without repetition has that place as its code. -/
theorem idxOf_of_getElem? {α : Type} [DecidableEq α] {l : List α} (hl : l.Nodup) {k : Nat} {x : α} (h : l[k]? = some x) : l.idxOf x = k := by
  obtain ⟨hk, rfl⟩ := List.getElem?_eq_some_iff.1 h
  exact hl.idxOf_getElem k hk

theorem seqCode_eq_idxOf (q : Seq) :
    seqCode q = [Seq.quiet, .preAlert, .alarm1, .confirmed, .preDischarge, .discharge, .soak, .resetWait].idxOf q := by
  cases q <;> rfl

theorem resultCode_eq_idxOf (r : Result) : resultCode r =
    [Result.done, .malformed, .unknownRequest, .notConfigured, .alreadyConfigured, .notAuthorized, .noSuchRecord, .wrongState,
      .registerFull, .duplicate, .zoneAlarm, .excursion, .noManifestSlot, .nothingReserved, .noSuchManifest, .noSession,
      .peerUnavailable, .peerFull, .transferTableFull, .queueFull, .sequenceRunning, .inputsActive].idxOf r := by
  cases r <;> rfl

theorem outcomeIndex_eq_idxOf (o : SessionOutcome) : outcomeIndex o =
    [SessionOutcome.committed, .handoverUnconfirmed, .noCase, .noIdentity, .denied, .authTimeout, .idleTimeout, .nothingLoaded,
      .digestMismatch, .cancelled, .linkFault, .fire, .caseRemoved].idxOf o := by
  cases o <;> rfl

theorem fireCauseCode_eq_idxOf (c : FireCause) : fireCauseCode c =
    [FireCause.alert, .alertCleared, .alarm, .manualCall, .confirmation, .held, .released, .countdownExpiry, .pulseEnd, .soakExpiry,
      .fireReset].idxOf c := by
  cases c <;> rfl

theorem suspectCode_eq_idxOf (r : SuspectReason) : suspectCode r =
    [SuspectReason.exposure, .countMismatch, .custodyMismatch, .unregistered, .transitLost, .transferInterrupted].idxOf r := by
  cases r <;> rfl

theorem transferOutcomeCode_eq_idxOf (o : TransferOutcome) : transferOutcomeCode o =
    [TransferOutcome.delivered, .declined, .noAnswer, .withdrawn, .resolvedLate, .takeNotDelivered, .arrivalNotDelivered,
      .cancelledBySender, .abandoned].idxOf o := by
  cases o <;> rfl

theorem declineCode_eq_idxOf (r : DeclineReason) :
    declineCode r = [DeclineReason.malformed, .zoneAlarm, .duplicate, .registerFull, .tableFull, .busy].idxOf r := by
  cases r <;> rfl

theorem rejectCode_eq_idxOf (r : RejectReason) :
    rejectCode r = [RejectReason.notOnManifest, .malformed, .duplicate, .registerFull, .listFull].idxOf r + 1 := by
  cases r <;> rfl

theorem groupCode_eq_idxOf (g : Group) : groupCode g = [Group.a, .b, .unused].idxOf g := by cases g <;> rfl

theorem channelStateCode_eq_idxOf (c : ChannelState) :
    channelStateCode c = [ChannelState.normal, .alert, .alarm, .fault].idxOf c := by
  cases c <;> rfl

theorem presenceCode_eq_idxOf (p : Presence) : presenceCode p = [Presence.unknown, .present, .absent].idxOf p := by cases p <;> rfl

theorem probeStateCode_eq_idxOf (p : ProbeState) : probeStateCode p = [ProbeState.valid, .stale, .failed].idxOf p := by cases p <;> rfl

/-- The order in which a DOCK AND MANIFEST notice counts the intents (R42). -/
theorem intentCode_eq_idxOf : intentCode = fun i => [Intent.departing, .returning].idxOf i := by
  funext i
  cases i <;> rfl

/-- A byte that may be absent, as a number of one byte that may be. -/
theorem optional_byte (b : Option Byte) : optional 1 (b.map fun x => [x]) = optionalNat 1 (b.map (·.toNat)) := by
  cases b with
  | none => rfl
  | some b => simp [optionalNat, optional, toBytes]

/-! ### What is sent, laid out (11.1, 11.4) -/

/-- A NOTICE goes to the gateway once the station is configured, to ALL before, with its payload at the level of its source (R187). -/
theorem itemBytes_notice {s : State} {n l : Nat} {x : PendingNotice} (hx : s.pendingNotice n = some x) (hl : s.level n = some l) :
    s.itemBytes (.notice n) = messageBytes 4 s.noticeDest (BitVec.ofNat 16 n)
      (BitVec.ofNat 8 n :: BitVec.ofNat 8 l :: BitVec.ofNat 8 x.repeats :: (toBytes 4 x.time ++ x.content.bytes)) := by
  simp only [State.itemBytes, hx, hl]
  rfl

theorem noticeDest_unconfigured {s : State} (h : s.request.config = none) : s.noticeDest = 17 := by
  simp only [State.noticeDest, State.configured, h, Option.isSome_none]
  rfl

theorem noticeDest_configured {s : State} {c : ConfigRecord} (h : s.request.config = some c) :
    s.noticeDest = s.request.gateway.getD 17 := by
  simp only [State.noticeDest, State.configured, h, Option.isSome_some]
  cases s.request.gateway <;> rfl

/-- An ANSWER carries the place of its result in the table of 9.3. -/
theorem itemBytes_answer (s : State) {k : Nat} {a : Answer} (h : resultCode a.result = k) :
    s.itemBytes (.answer a) = messageBytes 3 a.dest a.tag (a.kind :: BitVec.ofNat 8 k :: a.content) := by
  rw [← h]
  rfl

/-- A BEACON goes to ALL with tag 0 and carries the code of the sequence state (R171). -/
theorem itemBytes_beacon (s : State) {k : Nat} {b : Beacon} (h : seqCode b.fire = k) : s.itemBytes (.beacon b) =
    messageBytes 1 17 0 ([if b.configured then 1 else 0, BitVec.ofNat 8 k, if b.inBand then 1 else 0] ++ toBytes 2 b.registerCount ++
      [if b.dockBusy then 1 else 0, if b.excursionLatch then 1 else 0]) := by
  rw [← h]
  rfl

/-- A transfer message goes out under its kind, its tag free (log 8). -/
theorem itemBytes_peer (s : State) (m : PeerOut) :
    s.itemBytes (.peer m) = messageBytes m.body.kind m.dest (Config.peerTag s.free) m.body.bytes := rfl

/-- An OFFER's payload, part after part. -/
theorem offer_bytes (id : Ident) (n : Nat) (hold exposure : Option Nat) : PeerBody.bytes (.offer id n hold exposure) =
    id ++ BitVec.ofNat 8 n :: BitVec.ofNat 8 (offerPresence hold exposure) :: (toBytes 2 (hold.getD 0) ++ toBytes 3 (exposure.getD 0)) := by
  simp only [PeerBody.bytes, List.append_assoc]
  rfl

/-- A DECLINE's payload, by the place of its reason. -/
theorem decline_bytes (id : Ident) (n : Nat) {k : Nat} {reason : DeclineReason} (h : declineCode reason = k) :
    PeerBody.bytes (.decline id n reason) = id ++ [BitVec.ofNat 8 n, BitVec.ofNat 8 k] := by
  rw [← h]
  rfl

/-- A POLL with a rejected verdict, by the place of its reason counted from 1. -/
theorem pollRejected_bytes {k : Nat} {reason : RejectReason} (h : rejectCode reason = k) :
    (DockFrame.poll (.rejected reason)).bytes = linkFrame 2 [2, BitVec.ofNat 8 k] := by
  rw [← h]
  rfl

/-- An ABORT, by the place of its outcome counted from 1. -/
theorem abort_bytes {k : Nat} {outcome : SessionOutcome} (h : outcomeIndex outcome = k) :
    (DockFrame.abort outcome).bytes = linkFrame 5 [BitVec.ofNat 8 (k + 1)] := by
  rw [← h]
  rfl

/-- Settles O58: the parts read back by the lemmas above, the events by their constructors, and each message sent by its layout. -/
theorem formatsReadBackAsSent : Obligations.FormatsReadBackAsSent := by
  refine ⟨⟨rfl, crc_append_byte⟩, identOk_iff, fun f => caseFrameOf_bytes, fun b => beaconOf_beaconBytes,
    fun n hn => markNumber_eq_some.2 ⟨hn, rfl⟩, fun k rh t body hk hrh hlow hhigh => probeReading_sent hk hrh hlow hhigh,
    fun id n hold exposure => offerOf_sent, frameOk_iff,
    fun kind dest tag payload body => messageBytes_sent, ?events, fun s => ⟨fun n x l hx hl => ?notice, fun k a h => ?answer,
    fun k b h => ?beacon, fun m => ⟨Config.peerTag s.free, ?peer⟩, offer_bytes, fun id n body h => ?transfer, fun id n k reason h => ?decline,
    fun _ _ => rfl, rfl, rfl, rfl, rfl, fun k reason h => ?reject, fun _ _ => rfl, rfl, fun k outcome h => ?abort, rfl, rfl,
    fun _ => rfl, fun _ _ => rfl, fun _ => rfl, fun _ _ _ _ _ => rfl⟩⟩
  case notice =>
    rw [itemBytes_notice hx hl]
    cases hc : s.request.config with
    | none => rw [noticeDest_unconfigured hc]
    | some c =>
      rw [noticeDest_configured hc]
      cases s.request.gateway <;> rfl
  case answer => exact itemBytes_answer s ((resultCode_eq_idxOf _).trans (idxOf_of_getElem? (by decide) h))
  case beacon => exact itemBytes_beacon s ((seqCode_eq_idxOf _).trans (idxOf_of_getElem? (by decide) h))
  case peer =>
    rw [itemBytes_peer]
    cases m.body <;> rfl
  case transfer => rcases h with rfl | rfl | rfl <;> rfl
  case decline => exact decline_bytes id n ((declineCode_eq_idxOf _).trans (idxOf_of_getElem? (by decide) h))
  case reject =>
    exact pollRejected_bytes ((rejectCode_eq_idxOf _).trans (congrArg (· + 1) (idxOf_of_getElem? (by decide) h)))
  case abort => exact abort_bytes ((outcomeIndex_eq_idxOf _).trans (idxOf_of_getElem? (by decide) h))
  case events =>
    intro two one list opt reading seq intent e
    have hopt (width : Nat) (n : Option Nat) : optionalNat width n = opt width n := by cases n <;> rfl
    have hseq (q : Seq) : seqCode q = seq q := seqCode_eq_idxOf q
    have hintent : intentCode = intent := intentCode_eq_idxOf
    cases e
    case neighbourAlarm | arrivalRefused | spreadHigh | excursion => rfl
    case manifestEnded _ cause _ | restart cause _ _ _ => cases cause <;> rfl
    case zoneBand _ value => cases value <;> rfl
    all_goals refine congrArg (Prod.mk _) ?_
    case conditioningComplete _ position _ _ =>
      rw [Event.bytes, hopt]
      cases position <;> rfl
    case transferOutcome _ direction _ _ _ _ _ =>
      simp only [Event.bytes, hopt, optional_byte, transferOutcomeCode_eq_idxOf, List.append_assoc]
      cases direction <;> rfl
    case detectorFault => rw [Event.bytes, groupCode_eq_idxOf, channelStateCode_eq_idxOf]
    all_goals
      simp only [Event.bytes, hopt, hseq, hintent, optional_byte, fireCauseCode_eq_idxOf, presenceCode_eq_idxOf, outcomeIndex_eq_idxOf,
        suspectCode_eq_idxOf, probeStateCode_eq_idxOf, List.append_assoc]
      rfl

end Sys2Proof.Machine

namespace Sys2Proof.Machine

/-! ### Rows that take requests (R178, R184) -/

/-- A row that takes requests of a kind does so by `State.takeRequest`, with the fields it takes among those that fit it. -/
theorem row_of_takesRequest {c : Instr} {kind : RequestKind} {fields : List Byte} (h : takesRequest c kind fields = true) :
    ∃ fits owner, (∀ s, exec c s = taken s fun t => t.takeRequest kind fits owner) ∧ fits fields = true := by
  unfold takesRequest at h
  split at h
  any_goals exact ⟨_, _, fun _ => rfl, h⟩
  cases h

/-- While a taken RESET waits there is no request to take (R184). -/
theorem headRequest_of_resetWait {s : State} (h : s.request.resetWait.isSome = true) : s.headRequest = none := by
  rw [State.headRequest, h]
  rfl

theorem takeRequest_of_resetWait {s : State} (h : s.request.resetWait.isSome = true) (kind : RequestKind) (fits : List Byte → Bool)
    (owner : Request → State → Reply) : s.takeRequest kind fits owner = s := by
  simp only [State.takeRequest, headRequest_of_resetWait h]

theorem takeUnknown_of_resetWait {s : State} (h : s.request.resetWait.isSome = true) : s.takeUnknown = s := by
  simp only [State.takeUnknown, headRequest_of_resetWait h]

/-- Settles O25: the reply of RESET, and `headRequest_of_resetWait` for every row that takes requests. -/
theorem resetAnswersAndStopsRequests : Obligations.ResetAnswersAndStopsRequests := by
  refine ⟨fun s r rest h hp hr => ?_, fun s kind c fields hsettled hwait hc => ?_⟩
  · have hk : requestKindOf r.payload = some .reset := by rw [hr]; rfl
    have hw : layoutWhole .reset (requestFields r.payload) = true := by rw [hr]; rfl
    exact taken_reply h .reset hp hk rfl hw _ rfl
  · obtain rfl | hc := hc
    · exact (taken_of_settled hsettled _).trans (congrArg _ (takeUnknown_of_resetWait hwait))
    · obtain ⟨fits, owner, hrow, _⟩ := row_of_takesRequest hc
      rw [hrow, taken_of_settled hsettled, takeRequest_of_resetWait hwait]

/-! ### Kinds and layouts (R178, 11.1, 11.2) -/

/-- The kinds are numbered from 1 in the order of R178. -/
theorem requestKindOfCode_eq (n : Nat) : requestKindOfCode n =
    if n = 0 then none
    else [RequestKind.enrol, .retire, .shelve, .queryRecord, .releaseSuspect, .checkOut, .cancelManifest, .authorize, .deny, .move,
      .queryZone, .excursionClear, .fireReset, .configure, .reset][n - 1]? := by
  match n with
  | 0 | 1 | 2 | 3 | 4 | 5 | 6 | 7 | 8 | 9 | 10 | 11 | 12 | 13 | 14 | 15 => rfl
  | _ + 16 => rfl

theorem requestKindOf_kindByte (kind : RequestKind) (fields : List Byte) : requestKindOf (kindByte kind :: fields) = some kind := by
  cases kind <;> rfl

theorem custodial_iff (kind : RequestKind) : kind.custodial = true ↔
    kind = .retire ∨ kind = .releaseSuspect ∨ kind = .excursionClear ∨ kind = .fireReset ∨ kind = .reset := by
  cases kind <;> decide

/-- The kinds of one length, by their layouts. -/
theorem layoutWhole_fixed {kind : RequestKind} {length : Nat} (fields : List Byte)
    (h : (kind = .enrol ∨ kind = .shelve) ∧ length = 12 ∨ (kind = .retire ∨ kind = .queryRecord) ∧ length = 10 ∨
      kind = .releaseSuspect ∧ length = 16 ∨ (kind = .cancelManifest ∨ kind = .deny) ∧ length = 1 ∨
      kind = .authorize ∧ length = 2 ∨ kind = .move ∧ length = 11 ∨
      (kind = .queryZone ∨ kind = .excursionClear ∨ kind = .fireReset ∨ kind = .reset) ∧ length = 0) :
    layoutWhole kind fields = true ↔ fields.length = length := by
  have hlayout : layoutWhole kind fields = (fields.length == length) := by
    obtain ⟨rfl | rfl, rfl⟩ | ⟨rfl | rfl, rfl⟩ | ⟨rfl, rfl⟩ | ⟨rfl | rfl, rfl⟩ | ⟨rfl, rfl⟩ | ⟨rfl, rfl⟩ |
      ⟨rfl | rfl | rfl | rfl, rfl⟩ := h <;> rfl
  rw [hlayout, beq_iff_eq]

theorem layoutWhole_checkOut (fields : List Byte) :
    layoutWhole .checkOut fields = true ↔ ∃ n rest, fields = n :: rest ∧ rest.length = 10 * n.toNat := by
  cases fields with
  | nil => simp [layoutWhole]
  | cons n rest => simp [layoutWhole, byteAt, Nat.add_comm 1]

/-- A property of every chunk is one of every place at which a chunk starts. -/
theorem all_chunks (size : Nat) (p : List Byte → Bool) (count : Nat) (bytes : List Byte) :
    (chunks size count bytes).all p = true ↔ ∀ j, j < count → p ((bytes.drop (size * j)).take size) = true := by
  induction count generalizing bytes with
  | zero => simp [chunks]
  | succ count ih =>
    rw [chunks, List.all_cons, Bool.and_eq_true, ih, Nat.forall_lt_succ_left]
    simp only [List.drop_drop, Nat.mul_add, Nat.mul_zero, List.drop_zero, Nat.mul_one, Nat.add_comm size]

/-- The first byte of a chunk is the byte at which it starts. -/
theorem byteAt_chunk {bytes : List Byte} {i size : Nat} {b : Byte} (hb : bytes[i]? = some b) (hsize : size ≠ 0) :
    byteAt ((bytes.drop i).take size) 0 = b.toNat := by
  rw [byteAt, List.getD_eq_getElem?_getD, List.getElem?_take_of_lt (Nat.pos_of_ne_zero hsize), List.getElem?_drop, Nat.add_zero, hb]
  rfl

/-- Every item of a CONFIGURE of whole length is known where each entry starts with a number from 1 to 22 (R190). -/
theorem configItemsOk_iff {n : Byte} {rest : List Byte} (hlength : rest.length = 5 * n.toNat) : configItemsOk (n :: rest) = true ↔
    ∀ j, j < n.toNat → ∃ item, rest[5 * j]? = some item ∧ 1 ≤ item.toNat ∧ item.toNat ≤ 22 := by
  have hcount : byteAt (n :: rest) 0 = n.toNat := rfl
  rw [configItemsOk, hcount, List.drop_one, List.tail_cons, all_chunks]
  refine forall₂_congr fun j hj => ?_
  have hb : rest[5 * j]? = some rest[5 * j] := List.getElem?_eq_getElem (by omega)
  rw [byteAt_chunk hb (by decide), Bool.and_eq_true, decide_eq_true_iff, decide_eq_true_iff]
  refine ⟨fun h => ⟨_, hb, h⟩, fun ⟨item, hitem, h⟩ => ?_⟩
  rwa [Option.some.inj (hb.symm.trans hitem)]

theorem layoutWhole_configure (fields : List Byte) :
    layoutWhole .configure fields = true ↔ ∃ n rest, fields = n :: rest ∧ rest.length = 5 * n.toNat ∧
      ∀ j, j < n.toNat → ∃ item, rest[5 * j]? = some item ∧ 1 ≤ item.toNat ∧ item.toNat ≤ 22 := by
  cases fields with
  | nil => simp [layoutWhole]
  | cons n rest =>
    have hwhole : layoutWhole .configure (n :: rest) = true ↔ rest.length = 5 * n.toNat ∧ configItemsOk (n :: rest) = true := by
      simp [layoutWhole, byteAt, Nat.add_comm 1]
    rw [hwhole]
    constructor
    · rintro ⟨hlength, hitems⟩
      exact ⟨n, rest, rfl, hlength, (configItemsOk_iff hlength).1 hitems⟩
    · rintro ⟨_, _, ⟨rfl, rfl⟩, hlength, hitems⟩
      exact ⟨hlength, (configItemsOk_iff hlength).2 hitems⟩

/-! ### The checks of the request unit (R178) -/

/-- A request that passes the checks before its layout, and has not the whole of it, is refused. -/
theorem taken_malformed {s : State} {r : Request} {rest : List Request} (h : s.ready r rest) {kind : RequestKind} (hp : s.passes kind)
    {fits : List Byte → Bool} {owner : Request → State → Reply} (hk : requestKindOf r.payload = some kind)
    (hf : fits (requestFields r.payload) = true) (hw : layoutWhole kind (requestFields r.payload) = false) :
    taken s (fun t => t.takeRequest kind fits owner) = .next (s.answered r rest (kindByte kind) .malformed []) := by
  obtain ⟨hadmitted, hkey⟩ := hp
  have hkind : ¬(!(s.popped rest).configured && kind != .configure && kind != .queryZone) = true := by
    rw [show (s.popped rest).configured = s.configured from rfl]
    obtain h | rfl | rfl := hadmitted
    · rw [h]
      exact Bool.false_ne_true
    · rw [bne_self_eq_false, Bool.and_false, Bool.false_and]
      exact Bool.false_ne_true
    · rw [bne_self_eq_false, Bool.and_false]
      exact Bool.false_ne_true
  have hauthorized : ¬(kind.custodial && !(s.popped rest).pins.keyOn) = true := by
    rw [Bool.and_eq_true, Bool.not_eq_true']
    exact fun ⟨hcustodial, hoff⟩ => Bool.false_ne_true (hoff.symm.trans (hkey hcustodial))
  have hrefused : (!layoutWhole kind (requestFields r.payload)) = true := by rw [hw]; rfl
  rw [taken_judged h hk hf ((if_neg hkind).trans ((if_neg hauthorized).trans (if_pos hrefused)))]
  rfl

/-- A ready request of an unknown kind is answered UNKNOWN REQUEST with its kind byte. -/
theorem exec_unknownRequest {s : State} {r : Request} {rest : List Request} (h : s.ready r rest) {k : Byte} {fields : List Byte}
    (hr : r.payload = k :: fields) (hk : requestKindOf r.payload = none) :
    exec .unknownRequest s = .next (s.answered r rest k .unknownRequest []) := by
  obtain ⟨hsettled, _⟩ := id h
  refine (taken_of_settled hsettled State.takeUnknown).trans (congrArg _ ?_)
  rw [hr] at hk
  simp only [State.takeUnknown, headRequest_of_ready h, hr, hk, popRequest_of_ready h]
  rfl

/-- Settles O24: the checks in their order for the row that takes the request, by `row_of_takesRequest`; the unknown kind; the kinds and
their layouts. -/
theorem requestUnitChecksComeFirst : Obligations.RequestUnitChecksComeFirst := by
  refine ⟨fun s r rest kind c h hk hc => ?_, fun s r rest k fields h hr hk => exec_unknownRequest h hr hk,
    fun k _ => requestKindOfCode_eq k.toNat, requestKindOf_kindByte, custodial_iff,
    fun fields => ⟨fun kind length => layoutWhole_fixed fields, layoutWhole_checkOut fields, layoutWhole_configure fields⟩⟩
  obtain ⟨fits, owner, hrow, hf⟩ := row_of_takesRequest hc
  rw [hrow]
  exact ⟨fun hs hconfigure hquery => taken_notConfigured h hs hk hf hconfigure hquery,
    fun hs hcustodial hkey => taken_notAuthorized h hs hkey hk hf hcustodial,
    fun hp hw => taken_malformed h hp hk hf hw⟩

end Sys2Proof.Machine

namespace Sys2Proof.Machine

/-! ### Numeric items (R182) -/

/-- A clamped value is the nearer end of the range, or the value itself, and is changed just where it lies outside. -/
theorem clampTo_spec {low high : Nat} (h : low ≤ high) (v : Int) :
    (v < low → clampTo low high v = low) ∧ ((high : Int) < v → clampTo low high v = high) ∧
      ((low : Int) ≤ v → v ≤ high → (clampTo low high v : Int) = v) ∧
      ((clampTo low high v : Int) ≠ v ↔ v < low ∨ (high : Int) < v) := by
  unfold clampTo
  split
  · omega
  · split <;> omega

/-- An item that stands alone under its number, among the 22, apart from the items of a choice and the lists. -/
def NumericItem.Listed (n : NumericItem) : Prop :=
  numericItems.filter (fun m => m.item == n.item) = [n] ∧ n.low ≤ n.high ∧ n.item ∈ (List.range 22).map (· + 1) ∧
    n.item ∉ [13, 14, 17, 22]

theorem listed_of_mem {n : NumericItem} (h : n ∈ numericItems) : n.Listed := by
  unfold numericItems at h
  fin_cases h <;> exact ⟨rfl, by decide, by decide, by decide⟩

theorem numericValue_of_listed {n : NumericItem} (h : n.Listed) (entries : List ConfigEntry) :
    numericValue entries n.item = n.value entries := by
  obtain ⟨halone, _⟩ := h
  rw [numericValue, ← List.head?_filter, halone]
  rfl

/-- The answer names a numeric item just where it was clamped (R181). -/
theorem mem_namedItems_of_listed {n : NumericItem} (h : n.Listed) (own sender : Nat) (entries : List ConfigEntry) :
    n.item ∈ namedItems own sender entries ↔ n.clamped entries = true := by
  obtain ⟨halone, _, hnumber, hplain⟩ := h
  have hclamped : (numericItems.any fun m => m.item == n.item && m.clamped entries) = n.clamped entries := by
    rw [← List.any_filter, halone]
    exact Bool.or_false _
  simp only [List.mem_cons, List.not_mem_nil, or_false, not_or] at hplain
  obtain ⟨h13, h14, h17, h22⟩ := hplain
  rw [namedItems, List.mem_filter, and_iff_right hnumber, itemChanged, hclamped, beq_false_of_ne h13, beq_false_of_ne h14,
    beq_false_of_ne h17, beq_false_of_ne h22]
  simp only [Bool.false_and, Bool.or_false]

/-- A numeric item takes its value by its row of the table. -/
theorem itemTaken_numeric {n : NumericItem} (hn : n ∈ numericItems) (own sender : Nat) (entries : List ConfigEntry) :
    itemTaken own sender entries n.item n.low n.high n.dflt (numericValue entries n.item) := by
  have hlisted := listed_of_mem hn
  have hnamed := mem_namedItems_of_listed hlisted own sender entries
  have hvalue := numericValue_of_listed hlisted entries
  obtain ⟨_, hrange, _⟩ := hlisted
  rw [NumericItem.value, lastEntry] at hvalue
  rw [NumericItem.clamped, lastEntry] at hnamed
  unfold itemTaken
  cases hlast : (entries.filter fun e => e.item == n.item).getLast? with
  | none =>
    rw [hlast] at hvalue hnamed
    exact ⟨hvalue, fun h => Bool.false_ne_true (hnamed.1 h)⟩
  | some e =>
    rw [hlast] at hvalue hnamed
    obtain ⟨hbelow, habove, hinside, hoff⟩ := clampTo_spec hrange e.value
    rw [hvalue]
    exact ⟨hbelow, habove, hinside, hnamed.trans (bne_iff_ne.trans hoff)⟩

/-! ### Entries applied one after the other (log 18) -/

/-- Where each entry that hits a place puts its own value there and the others leave it, the last that hits it stands. -/
theorem foldl_last_stands {α β : Type} (apply : List α → β → List α) (hits : β → Bool) (value : β → α) (k : Nat)
    (h : ∀ l e, (apply l e)[k]? = if hits e then l[k]?.map fun _ => value e else l[k]?) (entries : List β) (start : List α) :
    (entries.foldl apply start)[k]? =
      ((entries.filter hits).getLast?).elim start[k]? fun e => start[k]?.map fun _ => value e := by
  induction entries using List.reverseRecOn with
  | nil => rfl
  | append_singleton entries e ih =>
    rw [List.foldl_append, List.foldl_cons, List.foldl_nil, h, ih, List.filter_append]
    by_cases he : hits e = true
    · rw [if_pos he, List.filter_cons_of_pos he, List.filter_nil, List.getLast?_concat]
      cases (entries.filter hits).getLast? with
      | none => rfl
      | some _ => exact Option.map_map _ _ _
    · rw [if_neg he, List.filter_cons_of_neg he, List.filter_nil, List.append_nil]

/-- A list whose entries are replaced one at a time keeps its length. -/
theorem foldl_length {α β : Type} (apply : List α → β → List α) (h : ∀ l e, (apply l e).length = l.length) (entries : List β)
    (start : List α) : (entries.foldl apply start).length = start.length := by
  induction entries generalizing start with
  | nil => rfl
  | cons e entries ih => rw [List.foldl_cons, ih, h]

/-! ### Detector groups and manual confirms (R182, R190) -/

theorem groupOf_getD (code : Nat) (dflt : Group) : (groupOf code).getD dflt =
    if code = 0 then .a else if code = 1 then .b else if code = 2 then .unused else dflt := by
  match code with
  | 0 | 1 | 2 => rfl
  | _ + 3 => rfl

theorem applyGroup_length (groups : List Group) (e : ConfigEntry) : (applyGroup groups e).length = groups.length := by
  unfold applyGroup
  split
  · exact List.length_set
  · rfl

/-- An entry gives its own channel its group, or the channel's default. -/
theorem applyGroup_getElem? {channel : Nat} (hc : channel < 8) (groups : List Group) (e : ConfigEntry) :
    (applyGroup groups e)[channel]? = if e.third == channel
      then groups[channel]?.map fun _ => (groupOf e.fourth).getD (defaultGroups.getD channel .unused) else groups[channel]? := by
  unfold applyGroup
  by_cases h : e.third = channel
  · rw [if_pos (beq_iff_eq.2 h), h, if_pos (by omega), List.getElem?_set', if_pos rfl]
    rfl
  · rw [if_neg (mt beq_iff_eq.1 h)]
    split
    · exact List.getElem?_set_ne h
    · rfl

theorem groupsFrom_length (entries : List ConfigEntry) : (groupsFrom entries).length = 8 :=
  foldl_length _ applyGroup_length _ defaultGroups

theorem defaultGroups_getElem? {channel : Nat} (hc : channel < 8) :
    defaultGroups[channel]? = some (if channel ≤ 3 then .a else .b) := by
  revert channel
  decide

/-- The last of a channel's entries gives its group. -/
theorem groupsFrom_getElem? (entries : List ConfigEntry) {channel : Nat} (hc : channel < 8) {dflt : Group}
    (hd : dflt = if channel ≤ 3 then .a else .b) : (groupsFrom entries)[channel]? =
      some (((entries.filter fun e => e.item == 13 && e.third == channel).getLast?).elim dflt fun e => (groupOf e.fourth).getD dflt) := by
  have hdefault : defaultGroups[channel]? = some dflt := (defaultGroups_getElem? hc).trans (congrArg some hd.symm)
  have hsplit : (entries.filter fun e => e.item == 13 && e.third == channel) =
      (entries.filter fun e => e.item == 13).filter fun e => e.third == channel := by
    simp only [List.filter_filter, Bool.and_comm]
  rw [hsplit, groupsFrom, foldl_last_stands _ _ _ _ (applyGroup_getElem? hc), List.getD_eq_getElem?_getD, hdefault]
  cases ((entries.filter fun e => e.item == 13).filter fun e => e.third == channel).getLast? <;> rfl

/-! ### Neighbours (R183) -/

/-- The neighbour list of some entries. -/
def neighboursOf (own sender : Nat) (given : List Int) : List Nat := given.foldl (keepNeighbour own sender) []

theorem neighboursOf_concat (own sender : Nat) (given : List Int) (v : Int) :
    neighboursOf own sender (given ++ [v]) = keepNeighbour own sender (neighboursOf own sender given) v :=
  List.foldl_concat ..

/-- The neighbours kept, in their order, are the entries in range, none of them this station, the sender or a repeat. -/
theorem neighboursOf_spec (own sender : Nat) (given : List Int) : (neighboursOf own sender given).Nodup ∧
    (neighboursOf own sender given).Sublist (given.map Int.toNat) ∧
    ∀ a : Nat, a ∈ neighboursOf own sender given ↔ (a : Int) ∈ given ∧ a ≤ 15 ∧ a ≠ own ∧ a ≠ sender := by
  induction given using List.reverseRecOn with
  | nil => simp [neighboursOf]
  | append_singleton given v ih =>
    obtain ⟨hnodup, hsublist, hmem⟩ := ih
    rw [neighboursOf_concat, List.map_append]
    generalize neighboursOf own sender given = kept at hnodup hsublist hmem ⊢
    unfold keepNeighbour
    split
    · obtain ⟨h0, h15, hown, hsender, hnew⟩ := ‹_›
      refine ⟨List.concat_eq_append ▸ hnodup.concat hnew, hsublist.append (.refl _), fun a => ?_⟩
      have hsame : a = v.toNat ↔ (a : Int) = v := by omega
      rw [List.mem_append, List.mem_append, List.mem_singleton, List.mem_singleton, hmem, hsame]
      refine ⟨?_, fun ⟨hin, hkept⟩ => hin.imp_left fun hin => ⟨hin, hkept⟩⟩
      rintro (⟨hin, hkept⟩ | rfl)
      · exact ⟨.inl hin, hkept⟩
      · exact ⟨.inr rfl, by omega⟩
    · rename_i hdropped
      refine ⟨hnodup, hsublist.trans (List.sublist_append_left _ _), fun a => ?_⟩
      rw [List.mem_append, List.mem_singleton]
      refine ⟨fun hin => ((hmem a).1 hin).imp_left .inl, ?_⟩
      rintro ⟨hin | rfl, hkept⟩
      · exact (hmem a).2 ⟨hin, hkept⟩
      · by_contra hnew
        exact hdropped ⟨by omega, by omega, by omega, by omega, hnew⟩

/-! ### Notice levels (R183, R185) -/

theorem applyLevel_length (levels : List (Option Nat)) (e : ConfigEntry) : (applyLevel levels e).length = levels.length := by
  unfold applyLevel
  split
  · rfl
  · exact List.length_set

/-- An entry gives its own source its level. -/
theorem applyLevel_getElem? {source : Nat} {row : SourceRow} (hrow : sourceTable[source]? = some row) (levels : List (Option Nat))
    (e : ConfigEntry) : (applyLevel levels e)[source]? =
      if e.third == source then levels[source]?.map fun _ => levelFor row e.fourth else levels[source]? := by
  unfold applyLevel
  by_cases h : e.third = source
  · rw [if_pos (beq_iff_eq.2 h), h, hrow]
    simp only [List.getElem?_set', if_pos]
    rfl
  · rw [if_neg (mt beq_iff_eq.1 h)]
    split
    · rfl
    · exact List.getElem?_set_ne h

theorem levelsFrom_length (entries : List ConfigEntry) : (levelsFrom entries).length = 16 :=
  foldl_length _ applyLevel_length _ defaultLevels

/-- A range of one level is its source's default, and has no OFF (R185). -/
theorem fixed_of_mem_sourceTable : ∀ row ∈ sourceTable, row.low = row.high → row.dflt = row.low ∧ row.off = false := by decide

/-- The level that an entry gives a source, said without the case of a fixed level. -/
theorem levelFor_eq {row : SourceRow} (hrow : row ∈ sourceTable) (given : Nat) : levelFor row given =
    if given = 255 then (if row.off then none else some row.dflt) else some (max row.low (min row.high given)) := by
  unfold levelFor
  split
  · rename_i hfixed
    obtain ⟨hdflt, hoff⟩ := fixed_of_mem_sourceTable row hrow hfixed
    rw [hoff, if_neg Bool.false_ne_true, hdflt]
    split
    · rfl
    · rw [← hfixed, Nat.max_eq_left (Nat.min_le_left ..)]
  · rfl

/-- A source takes its level by its row of the table. -/
theorem levelTaken_source (entries : List ConfigEntry) {c : ConfigRecord} (hc : c.levels = levelsFrom entries) {source : Nat}
    {row : SourceRow} (hrow : sourceTable[source]? = some row) : levelTaken entries c source row.low row.high row.off row.dflt := by
  have hdefault : defaultLevels[source]? = some (some row.dflt) := by
    rw [defaultLevels, List.getElem?_map, hrow]
    rfl
  have hsplit : (entries.filter fun e => e.item == 22 && e.third == source) =
      (entries.filter fun e => e.item == 22).filter fun e => e.third == source := by
    simp only [List.filter_filter, Bool.and_comm]
  rw [levelTaken, hc, hsplit, levelsFrom, foldl_last_stands _ _ _ _ (applyLevel_getElem? hrow), hdefault]
  cases ((entries.filter fun e => e.item == 22).filter fun e => e.third == source).getLast? with
  | none => rfl
  | some e => exact congrArg some (levelFor_eq (List.mem_of_getElem? hrow) e.fourth)

/-! ### The record (R181 to R183) -/

/-- Settles O23: each item by its row of its table, the lists by their entries applied one after the other. -/
theorem configuredValuesLieInTheirRanges : Obligations.ConfiguredValuesLieInTheirRanges := by
  rintro own sender entries _ rfl
  have hitems := fun n (hn : n ∈ numericItems) => itemTaken_numeric hn own sender entries
  have hlevels := fun source row (hrow : sourceTable[source]? = some row) =>
    levelTaken_source entries (c := configFrom own sender entries) rfl hrow
  simp only [numericItems, List.forall_mem_cons] at hitems
  obtain ⟨h1, h2, h3, h4, h5, h6, h7, h8, h9, h10, h11, h12, h15, h16, h18, h19, h20, h21, _⟩ := hitems
  refine ⟨h1, h2, h3, h4, h5, h6, h7, h8, h9, h10, h11, h12, h15, h16, h18, h19, h20, h21, groupsFrom_length entries,
    fun channel dflt hchannel hdflt => ?_, ?_, ?_, levelsFrom_length entries, hlevels 0 _ rfl, hlevels 1 _ rfl, hlevels 2 _ rfl,
    hlevels 3 _ rfl, hlevels 4 _ rfl, hlevels 5 _ rfl, hlevels 6 _ rfl, hlevels 7 _ rfl, hlevels 8 _ rfl, hlevels 9 _ rfl,
    hlevels 10 _ rfl, hlevels 11 _ rfl, hlevels 12 _ rfl, hlevels 13 _ rfl, hlevels 14 _ rfl, hlevels 15 _ rfl⟩
  · refine (groupsFrom_getElem? entries hchannel hdflt).trans (congrArg some ?_)
    cases (entries.filter fun e => e.item == 13 && e.third == channel).getLast? with
    | none => rfl
    | some e => exact groupOf_getD e.fourth dflt
  · change manualConfirmsFrom entries = _
    rw [manualConfirmsFrom, lastEntry]
    cases (entries.filter fun e => e.item == 14).getLast? with
    | none => rfl
    | some e => exact Bool.eq_iff_iff.2 (bne_iff_ne.trans decide_eq_true_iff.symm)
  · rintro given rfl
    exact neighboursOf_spec own sender _

end Sys2Proof.Machine

namespace Sys2Proof.Machine

/-! ### Sources that do not record (R185, R186) -/

/-- A source that does not record keeps its pending notice. -/
structure State.KeepsOff (s t : State) (n : Nat) : Prop where
  request : t.request = s.request
  off : s.records n = false → t.pendingNotice n = s.pendingNotice n

namespace State.KeepsOff

variable {s t u : State} {n : Nat}

theorem trans (h : s.KeepsOff t n) (k : t.KeepsOff u n) : s.KeepsOff u n :=
  ⟨k.request.trans h.request, fun hoff => (k.off ((records_congr n h.request).trans hoff)).trans (h.off hoff)⟩

theorem of_notices (hr : t.request = s.request) (hn : t.notices = s.notices) : s.KeepsOff t n :=
  ⟨hr, fun _ => pendingNotice_congr n hn⟩

theorem emit (s : State) (e : Event) : s.KeepsOff (s.emit e) n := by
  refine ⟨State.emit_request s e, fun hoff => ?_⟩
  by_cases he : n = e.source
  · have hsilent : ¬s.records e.source = true := by rw [← he, hoff]; exact Bool.false_ne_true
    rw [State.emit, if_neg hsilent]
  · exact emit_pendingNotice_other s e n he

theorem of_emit {e : Event} (hr : t.request = s.request) (hn : t.notices = (s.emit e).notices) : s.KeepsOff t n :=
  (emit s e).trans (of_notices (hr.trans (State.emit_request s e).symm) hn)

theorem emitAll (s : State) (l : List Event) : s.KeepsOff (s.emitAll l) n := by
  induction l generalizing s with
  | nil => exact of_notices rfl rfl
  | cons e l ih => exact (emit s e).trans (ih _)

end State.KeepsOff

theorem keepsOff_judgeSpread (s : State) (n : Nat) : s.KeepsOff s.judgeSpread n := by
  have hrequest : s.judgeSpread.request = s.request := by
    obtain ⟨_, _, h⟩ := judgeSpread_frame s
    rw [h]
    rfl
  obtain ⟨h, _⟩ | ⟨_, _, _, _, _, h, _⟩ := judgeSpread_notices s
  · exact .of_notices hrequest h
  · exact .of_emit hrequest h

theorem keepsOff_judgeBand (s : State) (n : Nat) : s.KeepsOff s.judgeBand n := by
  unfold State.judgeBand
  split
  · exact .of_notices rfl rfl
  · refine .trans ?_ (.emit _ _)
    exact .of_notices rfl rfl

theorem keepsOff_formation (s : State) (n : Nat) : s.KeepsOff s.formation n :=
  ((keepsOff_judgeSpread s n).trans (.of_notices (by simp [State.formZone]) (by simp [State.formZone]))).trans (keepsOff_judgeBand _ n)

theorem keepsOff_judgeNeighbours (s : State) (n : Nat) : s.KeepsOff s.judgeNeighbours n := by
  by_cases h : s.judgeNeighbours.fire.neighbourAlert = s.fire.neighbourAlert
  · obtain ⟨_, _, hsame, _⟩ := judgeNeighbours_spec s
    rw [hsame h]
    exact .of_notices rfl rfl
  · exact .of_emit (State.judgeNeighbours_request s) (judgeNeighbours_changed s h).1

theorem keepsOff_fireEndsSession (s : State) (n : Nat) : s.KeepsOff s.fireEndsSession n := by
  refine ⟨State.fireEndsSession_request s, ?_⟩
  unfold State.fireEndsSession
  split
  · exact (State.KeepsOff.of_emit (State.endUncommitted_request s .fire) (endUncommitted_notices s .fire)).off
  · exact fun _ => rfl

theorem keepsOff_withdrawOffers (s : State) (n : Nat) : s.KeepsOff s.withdrawOffers n := by
  refine .trans (.of_notices ?_ ?_) (.emitAll _ _)
  · rw [foldl_keeps (fun t : State => t.request) _ (fun t e => State.queueWithdraw_request t e),
      foldl_keeps fun t : State => t.request]
    exact fun t e => by simp
  · rw [foldl_keeps (fun t : State => t.notices) _ (fun t e => State.queueWithdraw_notices t e),
      foldl_keeps fun t : State => t.notices]
    exact fun t e => by simp

theorem keepsOff_evaluate (s : State) (n : Nat) : s.KeepsOff s.evaluate n := by
  have hentered (q : Seq) (c : FireCause) : s.KeepsOff (s.enterSeq q c) n :=
    .of_emit (State.enterSeq_request s q c) (enterSeq_notices s q c)
  by_cases hsame : s.evaluatedSeq = s.fire.seq
  · rw [(evaluate_spec s).2.1 hsame]
    exact .of_notices rfl rfl
  · obtain ⟨_, h⟩ | ⟨_, h⟩ := evaluate_change rfl hsame <;> rw [h]
    · exact hentered _ _
    · exact ((hentered _ _).trans (keepsOff_fireEndsSession _ n)).trans (keepsOff_withdrawOffers _ n)

/-! ### The line and the notice unit at an accepted configuration (R172, R188) -/

theorem flagNeighbours_length (l : List Nat) (base : Nat) (peers : List PeerEntry) :
    (flagNeighbours l base peers).length = peers.length := by
  induction peers generalizing base with
  | nil => rfl
  | cons p peers ih => rw [flagNeighbours, List.length_cons, ih, List.length_cons]

/-- Each peer is flagged by its own address. -/
theorem flagNeighbours_getElem? (l : List Nat) (base : Nat) (peers : List PeerEntry) (a : Nat) :
    (flagNeighbours l base peers)[a]? = peers[a]?.map fun p => { p with neighbour := l.contains (base + a) } := by
  induction peers generalizing base a with
  | nil => rfl
  | cons p peers ih =>
    cases a with
    | zero => rfl
    | succ a =>
      rw [flagNeighbours, List.getElem?_cons_succ, ih, List.getElem?_cons_succ, Nat.add_right_comm, Nat.add_assoc]

theorem keepIfSending_eq (x : Option PendingNotice) : keepIfSending x = x.filter (·.sending) := by
  cases x <;> rfl

theorem dropOff_length {levels : List (Option Nat)} {pending : List (Option PendingNotice)} (h : levels.length = pending.length) :
    (dropOff levels pending).length = pending.length := by
  rw [dropOff, List.length_zipWith, h, Nat.min_self]

/-- A source that records keeps its pending notice at the configuration; one that does not keeps it while it is being sent. -/
theorem dropOff_getElem? {levels : List (Option Nat)} {n : Nat} {level : Option Nat} (h : levels[n]? = some level)
    (pending : List (Option PendingNotice)) : ((dropOff levels pending)[n]?).join =
      if level.isSome then (pending[n]?).join else (pending[n]?).join.filter (·.sending) := by
  rw [dropOff, List.getElem?_zipWith, h]
  cases pending[n]? with
  | none => cases level <;> rfl
  | some x =>
    cases level with
    | none => exact keepIfSending_eq x
    | some _ => rfl

/-! ### The probes at an accepted configuration (R97, R101) -/

/-- A probe's record once it is no longer polled. -/
def ProbeRecord.dropped (p : ProbeRecord) : ProbeRecord := { p with state := .failed, reading := none }

theorem dropProbe_of_polled {s : State} {k : Nat} (h : s.polled k = true) : s.dropProbe k = s := by
  unfold State.dropProbe
  split
  · rw [h] at *
    contradiction
  · rfl

theorem dropProbe_of_none {s : State} {k : Nat} (h : s.probe k = none) : s.dropProbe k = s := by
  simp only [State.dropProbe, h]

theorem dropProbe_of_some {s : State} {k : Nat} {p : ProbeRecord} (hp : s.probe k = some p) (h : s.polled k = false) :
    s.dropProbe k = (s.setProbe k p.dropped).emitAll (probeEvent k p p.dropped) := by
  simp only [State.dropProbe, hp, h]
  rfl

/-- Dropping a probe changes the probes and the notices alone. -/
theorem dropProbe_frame (s : State) (k : Nat) : ∃ probes notices,
    s.dropProbe k = { s with climate := { s.climate with probes := probes }, notices := notices } := by
  unfold State.dropProbe
  split
  · exact ⟨_, _, emitAll_withNotices _ _⟩
  · exact ⟨_, _, rfl⟩

/-- Dropping a probe that is not polled discards its reading, and leaves every other probe. -/
theorem dropProbe_probe (s : State) {k : Nat} (hk : 1 ≤ k) (i : Nat) : (s.dropProbe k).climate.probes[i]? =
    if k = i + 1 ∧ s.polled (i + 1) = false then s.climate.probes[i]?.map ProbeRecord.dropped else s.climate.probes[i]? := by
  have hprobe : s.probe k = s.climate.probes[k - 1]? := entryAt_one _ _ hk
  by_cases hki : k = i + 1
  · subst hki
    rw [Nat.add_sub_cancel] at hprobe
    cases hpolled : s.polled (i + 1) with
    | true => rw [dropProbe_of_polled hpolled, if_neg fun h => nomatch h.2]
    | false =>
      rw [if_pos ⟨rfl, rfl⟩, ← hprobe]
      cases hp : s.probe (i + 1) with
      | none => rw [dropProbe_of_none hp, ← hprobe, hp]; rfl
      | some p =>
        rw [dropProbe_of_some hp hpolled, State.emitAll_climate, State.setProbe, State.withClimate_climate]
        simp only [setEntry_one hk, Nat.add_sub_cancel]
        rw [List.getElem?_set', if_pos rfl, ← hprobe, hp]
        rfl
  · rw [if_neg fun h => hki h.1, State.dropProbe]
    split
    · rw [State.emitAll_climate, State.setProbe, State.withClimate_climate]
      simp only [setEntry_one hk]
      exact List.getElem?_set_ne (by omega)
    · rfl

/-- Probes dropped one after the other. -/
theorem foldl_dropProbe_frame (ks : List Nat) (s : State) : ∃ probes notices,
    ks.foldl State.dropProbe s = { s with climate := { s.climate with probes := probes }, notices := notices } := by
  induction ks generalizing s with
  | nil => exact ⟨_, _, rfl⟩
  | cons k ks ih =>
    obtain ⟨_, _, hfirst⟩ := dropProbe_frame s k
    obtain ⟨probes, notices, hrest⟩ := ih (s.dropProbe k)
    exact ⟨probes, notices, by rw [List.foldl_cons, hrest, hfirst]⟩

theorem foldl_dropProbe_polled (ks : List Nat) (s : State) (k : Nat) : (ks.foldl State.dropProbe s).polled k = s.polled k := by
  obtain ⟨_, _, h⟩ := foldl_dropProbe_frame ks s
  rw [h]
  rfl

theorem foldl_dropProbe_probe {ks : List Nat} (hks : ∀ k ∈ ks, 1 ≤ k) (s : State) (i : Nat) :
    (ks.foldl State.dropProbe s).climate.probes[i]? =
      if i + 1 ∈ ks ∧ s.polled (i + 1) = false then s.climate.probes[i]?.map ProbeRecord.dropped else s.climate.probes[i]? := by
  induction ks generalizing s with
  | nil => rw [if_neg (by simp)]; rfl
  | cons k ks ih =>
    have hpolled : (s.dropProbe k).polled (i + 1) = s.polled (i + 1) := foldl_dropProbe_polled [k] s (i + 1)
    rw [List.foldl_cons, ih (fun j hj => hks j (.tail _ hj)), hpolled, dropProbe_probe s (hks k (.head _))]
    cases s.polled (i + 1) with
    | true => simp only [Bool.true_eq_false, and_false, if_false]
    | false =>
      simp only [and_true]
      by_cases hki : k = i + 1
      · rw [if_pos hki, if_pos (List.mem_cons.2 (.inl hki.symm)), Option.map_map]
        split <;> rfl
      · simp only [if_neg hki, List.mem_cons, Ne.symm hki, false_or]

/-- A probe that is FAILED already is dropped without an event (R101). -/
theorem dropProbe_notices_failed {s : State} {k : Nat} (h : ∀ p, s.probe k = some p → p.state = .failed) :
    (s.dropProbe k).notices = s.notices := by
  unfold State.dropProbe
  split
  · rename_i p hp _
    have hnone : probeEvent k p { p with state := .failed, reading := none } = [] := by
      rw [probeEvent, h p hp]
    simp only [hnone]
    rfl
  · rfl

theorem foldl_dropProbe_notices_failed {ks : List Nat} (hks : ∀ k ∈ ks, 1 ≤ k) (s : State)
    (h : ∀ k ∈ ks, ∀ p, s.climate.probes[k - 1]? = some p → p.state = .failed) :
    (ks.foldl State.dropProbe s).notices = s.notices := by
  induction ks generalizing s with
  | nil => rfl
  | cons k ks ih =>
    have hk := hks k (.head _)
    rw [List.foldl_cons, ih (fun j hj => hks j (.tail _ hj)), dropProbe_notices_failed fun p hp => h k (.head _) p ?_]
    · exact (entryAt_one _ _ hk).symm.trans hp
    · intro j hj p hp
      rw [dropProbe_probe s hk] at hp
      split at hp
      · obtain ⟨_, _, rfl⟩ := Option.map_eq_some_iff.1 hp
        rfl
      · exact h j (.tail _ hj) p hp

/-- Dropping probes reports on PROBE alone. -/
theorem foldl_dropProbe_pendingNotice (ks : List Nat) (s : State) {n : Nat} (hn : n ≠ 13) :
    (ks.foldl State.dropProbe s).pendingNotice n = s.pendingNotice n := by
  induction ks generalizing s with
  | nil => rfl
  | cons k ks ih =>
    rw [List.foldl_cons, ih, State.dropProbe]
    split
    · exact emitAll_pendingNotice_other _ _ n fun e he => by rw [probeEvent_source _ _ _ e he]; exact hn
    · rfl

theorem keepsOff_dropProbe (s : State) (k n : Nat) : s.KeepsOff (s.dropProbe k) n := by
  unfold State.dropProbe
  split
  · refine .trans ?_ (.emitAll _ _)
    exact .of_notices rfl rfl
  · exact .of_notices rfl rfl

theorem keepsOff_foldl_dropProbe (ks : List Nat) (s : State) (n : Nat) : s.KeepsOff (ks.foldl State.dropProbe s) n := by
  induction ks generalizing s with
  | nil => exact .of_notices rfl rfl
  | cons k ks ih => exact (keepsOff_dropProbe s k n).trans (ih _)

theorem foldl_dropProbe_length (ks : List Nat) (s : State) :
    (ks.foldl State.dropProbe s).notices.pending.length = s.notices.pending.length := by
  induction ks generalizing s with
  | nil => rfl
  | cons k ks ih =>
    rw [List.foldl_cons, ih, State.dropProbe]
    split
    · rw [emitAll_length]
      rfl
    · rfl

/-- Of the probes dropped in ascending number, the last that held a reading is the one reported (log 42). -/
theorem foldl_dropProbe_reported {before after : List Nat} {s : State} {k : Nat} {p : ProbeRecord} {y : Reading}
    (hks : ∀ j ∈ before ++ k :: after, 1 ≤ j) (hbefore : k ∉ before) (hl : s.notices.pending.length = 16) (hr : s.records 13 = true)
    (hpolled : s.polled k = false) (hp : s.climate.probes[k - 1]? = some p) (hstate : p.state ≠ .failed) (hy : p.reading = some y)
    (hafter : ∀ j ∈ after, ∀ x, s.climate.probes[j - 1]? = some x → x.state = .failed) :
    ∃ x, ((before ++ k :: after).foldl State.dropProbe s).pendingNotice 13 = some x ∧ x.content = .probe k .failed y := by
  have hk : 1 ≤ k := hks k (by simp)
  have hbefore1 : ∀ j ∈ before, 1 ≤ j := fun j hj => hks j (by simp [hj])
  have hafter1 : ∀ j ∈ after, 1 ≤ j := fun j hj => hks j (by simp [hj])
  obtain ⟨u, hu⟩ : ∃ u, u = before.foldl State.dropProbe s := ⟨_, rfl⟩
  have hup : u.probe k = some p := by
    rw [State.probe, entryAt_one _ _ hk, hu, foldl_dropProbe_probe hbefore1, if_neg, hp]
    rw [Nat.sub_add_cancel hk]
    exact fun h => hbefore h.1
  have hupolled : u.polled k = false := by rw [hu, foldl_dropProbe_polled, hpolled]
  have hdropped : u.dropProbe k = (u.setProbe k p.dropped).emit (.probe k .failed y) := by
    rw [dropProbe_of_some hup hupolled, ProbeRecord.dropped, probeEvent_fails hstate hy]
    rfl
  have hrequest : u.request = s.request := hu ▸ (keepsOff_foldl_dropProbe before s 13).request
  obtain ⟨x, hx, hc⟩ := emit_content (u.setProbe k p.dropped) (.probe k .failed y)
    ((hu ▸ foldl_dropProbe_length before s : u.notices.pending.length = _).trans hl) ((records_congr 13 hrequest).trans hr)
  refine ⟨x, ?_, hc⟩
  rw [List.foldl_append, List.foldl_cons, ← hu, pendingNotice_congr 13 (foldl_dropProbe_notices_failed hafter1 _ ?_), hdropped]
  · exact hx
  · intro j hj z hz
    rw [dropProbe_probe u hk, hu, foldl_dropProbe_probe hbefore1] at hz
    split at hz
    · obtain ⟨_, _, rfl⟩ := Option.map_eq_some_iff.1 hz
      rfl
    · split at hz
      · obtain ⟨_, _, rfl⟩ := Option.map_eq_some_iff.1 hz
        rfl
      · exact hafter j hj z hz

end Sys2Proof.Machine

namespace Sys2Proof.Machine

/-! ### Outputs that are OFF stay OFF (R106, R107) -/

theorem climateForcedIn_off {s : State} (hh : s.climate.humidify.on = false) (hd : s.climate.dehumidify.on = false) (t : State) :
    s.climateForcedIn t = s.climate := by
  rw [State.climateForcedIn, hh, hd]
  simp only [Bool.false_eq_true, and_false, if_false]

theorem turnOff_off {o : ClimateOutput} (h : o.on = false) (now : Nat) : o.turnOff now = o :=
  if_neg (Bool.eq_false_iff.1 h)

/-- A station that is not configured has both outputs OFF where they are held as O59 says. -/
theorem outputs_off_of_unconfigured {s : State} (hs : s.configured = false) (hheld : s.climateHeld = true) :
    s.climate.humidify.on = false ∧ s.climate.dehumidify.on = false :=
  ((climateHeld_iff s).1 hheld).2 ((forcing_iff s).2 (.inl hs))

/-! ### An evaluation that stops no movement -/

/-- An evaluation short of confirmation, or with no movement to stop, changes nothing or changes the sequence state alone. -/
theorem evaluate_still {u : State} (h : u.evaluatedSeq = u.fire.seq ∨ seqCode u.evaluatedSeq < 3 ∨
      u.dock.session.beforeCommit = false ∧ ∀ e ∈ u.transfer.entries, e.isOffered = false) :
    (u.evaluatedSeq = u.fire.seq ∧ u.evaluate = u) ∨ u.evaluatedSeq ≠ u.fire.seq ∧ ∃ c, u.evaluate = u.enterSeq u.evaluatedSeq c := by
  by_cases hsame : u.evaluatedSeq = u.fire.seq
  · exact .inl ⟨hsame, (evaluate_spec u).2.1 hsame⟩
  · obtain h | hlt | ⟨hsession, hoffers⟩ := h
    · exact absurd h hsame
    · obtain ⟨_, h⟩ | ⟨hge, _⟩ := evaluate_change rfl hsame
      · exact .inr ⟨hsame, _, h⟩
      · exact absurd hlt (Nat.not_lt.2 hge)
    · exact evaluate_plain hsession hoffers

/-- An evaluation leaves the neighbour-alert flag. -/
theorem evaluate_neighbourAlert (u : State) : u.evaluate.fire.neighbourAlert = u.fire.neighbourAlert := by
  obtain ⟨_, hsame, hchanged, _⟩ := evaluate_spec u
  by_cases h : u.evaluatedSeq = u.fire.seq
  · rw [hsame h]
  · rw [hchanged h]

/-! ### The flag judged and the sequence evaluated (R121, R136, R142) -/

/-- The neighbour-alert flag judged, then the sequence evaluated. -/
def State.fireJudged (u : State) : State := u.judgeNeighbours.evaluate

/-- The state that an evaluation gives is that of the groups and inputs, which the flag does not enter. -/
theorem judgeNeighbours_evaluatedSeq (u : State) : u.judgeNeighbours.evaluatedSeq = u.evaluatedSeq := by
  obtain ⟨hframe, _⟩ := judgeNeighbours_spec u
  generalize u.judgeNeighbours = j at hframe ⊢
  rw [hframe]
  rfl

/-- The judgement of the flag reports on NEIGHBOUR ALARM alone. -/
theorem judgeNeighbours_pendingNotice_other (u : State) {n : Nat} (hn : n ≠ 3) :
    u.judgeNeighbours.pendingNotice n = u.pendingNotice n := by
  by_cases h : u.judgeNeighbours.fire.neighbourAlert = u.fire.neighbourAlert
  · rw [(judgeNeighbours_spec u).2.2.1 h]
  · exact (pendingNotice_congr n (judgeNeighbours_changed u h).1).trans (emit_pendingNotice_other u _ n hn)

theorem judgeNeighbours_length (u : State) : u.judgeNeighbours.notices.pending.length = u.notices.pending.length := by
  by_cases h : u.judgeNeighbours.fire.neighbourAlert = u.fire.neighbourAlert
  · rw [(judgeNeighbours_spec u).2.2.1 h]
  · rw [(judgeNeighbours_changed u h).1, emit_length]

/-- The judgement of the flag moves the damper, where sounder and damper stand by their tables (R134). -/
theorem judgeNeighbours_fire {u : State} (hsounder : u.fire.sounder = sounderFor u.fire.seq u.fire.generalSeen)
    (hdamper : u.fire.damperClosed = damperFor u.fire.seq u.fire.neighbourAlert) : u.judgeNeighbours.fire = { u.fire with
      neighbourAlert := u.judgeNeighbours.fire.neighbourAlert,
      sounder := sounderFor u.fire.seq u.fire.generalSeen,
      damperClosed := damperFor u.fire.seq u.judgeNeighbours.fire.neighbourAlert } := by
  by_cases h : u.judgeNeighbours.fire.neighbourAlert = u.fire.neighbourAlert
  · rw [(judgeNeighbours_spec u).2.2.1 h, ← hsounder, ← hdamper]
  · exact (judgeNeighbours_changed u h).2.1

/-- What both may change: the blocks that an evaluation may, and of the climate unit and the line unit the outputs and the peer output
queue. -/
theorem fireJudged_frame (u : State) : u.fireJudged = { u with
    custody := u.fireJudged.custody, dock := u.fireJudged.dock, fire := u.fireJudged.fire, transfer := u.fireJudged.transfer,
    notices := u.fireJudged.notices, line := { u.line with peerOut := u.fireJudged.line.peerOut },
    climate := { u.climate with
      humidify := u.fireJudged.climate.humidify, dehumidify := u.fireJudged.climate.dehumidify } } := by
  obtain ⟨hjudged, _⟩ := judgeNeighbours_spec u
  obtain ⟨hevaluated, _⟩ := evaluate_frame u.judgeNeighbours
  rw [State.fireJudged]
  generalize u.judgeNeighbours.evaluate = t at hevaluated ⊢
  generalize u.judgeNeighbours = j at hjudged hevaluated
  rw [hjudged] at hevaluated
  exact hevaluated

theorem fireJudged_flag (u : State) : u.fireJudged.fire.neighbourAlert = !u.fireJudged.alertHolders.isEmpty := by
  obtain ⟨_, hflag, _⟩ := judgeNeighbours_spec u
  have hholders : u.fireJudged.alertHolders = u.judgeNeighbours.alertHolders := by
    rw [State.alertHolders, State.alertHolders, fireJudged_frame, State.judgeNeighbours_line]
  rw [hholders, ← hflag]
  exact evaluate_neighbourAlert _

/-- Where the evaluation stops no movement, custody, dock, transfers and line are as they were, and so is every notice but those of FIRE
STATE and NEIGHBOUR ALARM. -/
theorem fireJudged_still {u : State} (h : u.evaluatedSeq = u.fire.seq ∨ seqCode u.evaluatedSeq < 3 ∨
      u.dock.session.beforeCommit = false ∧ ∀ e ∈ u.transfer.entries, e.isOffered = false) :
    u.fireJudged.custody = u.custody ∧ u.fireJudged.dock = u.dock ∧ u.fireJudged.transfer = u.transfer ∧
      u.fireJudged.line = u.line ∧ ∀ n, n ≠ 0 → n ≠ 3 → u.fireJudged.pendingNotice n = u.pendingNotice n := by
  obtain ⟨_, _, _, hseq, _⟩ := judgeNeighbours_spec u
  rw [← judgeNeighbours_evaluatedSeq, ← hseq, ← State.judgeNeighbours_dock, ← State.judgeNeighbours_transfer] at h
  rw [State.fireJudged, ← State.judgeNeighbours_custody u, ← State.judgeNeighbours_dock u, ← State.judgeNeighbours_transfer u,
    ← State.judgeNeighbours_line u]
  have hother := fun n (hn : n ≠ 3) => judgeNeighbours_pendingNotice_other u hn
  obtain ⟨_, he⟩ | ⟨_, c, he⟩ := evaluate_still h <;> rw [he]
  · exact ⟨rfl, rfl, rfl, rfl, fun n _ h3 => hother n h3⟩
  · refine ⟨State.enterSeq_custody .., State.enterSeq_dock .., State.enterSeq_transfer .., State.enterSeq_line .., fun n h0 h3 => ?_⟩
    rw [pendingNotice_congr n (enterSeq_notices _ _ c), ← hother n h3]
    exact emit_pendingNotice_other _ _ n h0

/-- Outputs that are OFF are left as they are. -/
theorem fireJudged_climate {u : State} (hh : u.climate.humidify.on = false) (hd : u.climate.dehumidify.on = false) :
    u.fireJudged.climate = u.climate := by
  have hjudged : u.judgeNeighbours.climate = u.climate := by
    by_cases h : u.judgeNeighbours.fire.neighbourAlert = u.fire.neighbourAlert
    · rw [(judgeNeighbours_spec u).2.2.1 h]
    · exact (judgeNeighbours_changed u h).2.2.trans (climateForcedIn_off hh hd _)
  rw [State.fireJudged]
  by_cases hsame : u.judgeNeighbours.evaluatedSeq = u.judgeNeighbours.fire.seq
  · rw [(evaluate_spec _).2.1 hsame, hjudged]
  · rw [evaluate_climate hsame, climateForcedIn_off (by rw [hjudged, hh]) (by rw [hjudged, hd]), hjudged]

/-- The fire unit in the sequence state that the evaluation gives, its timers as a change of state leaves them (R128, R133, R134). -/
theorem fireJudged_fire {u : State} {q : Seq} (hq : q = u.evaluatedSeq)
    (hsounder : u.fire.sounder = sounderFor u.fire.seq u.fire.generalSeen)
    (hdamper : u.fire.damperClosed = damperFor u.fire.seq u.fire.neighbourAlert) : u.fireJudged.fire = { u.fire with
      seq := q, neighbourAlert := u.fireJudged.fire.neighbourAlert,
      countdown := if q = u.fire.seq then u.fire.countdown
        else if q = .preDischarge then some (u.now + 1000 * u.cfg.preDischarge) else none,
      pulse := if q = u.fire.seq then u.fire.pulse else none, soak := if q = u.fire.seq then u.fire.soak else none,
      release := if q = u.fire.seq then u.fire.release else false,
      sounder := sounderFor q u.fire.generalSeen, damperClosed := damperFor q u.fireJudged.fire.neighbourAlert } := by
  have hjudged := judgeNeighbours_fire hsounder hdamper
  have hflag : u.fireJudged.fire.neighbourAlert = u.judgeNeighbours.fire.neighbourAlert := evaluate_neighbourAlert _
  obtain ⟨_, hsame, hchanged, _⟩ := evaluate_spec u.judgeNeighbours
  obtain ⟨_, _, _, hseq, _⟩ := judgeNeighbours_spec u
  rw [judgeNeighbours_evaluatedSeq, ← hq, hseq] at hsame hchanged
  rw [hflag, State.fireJudged]
  by_cases h : q = u.fire.seq
  · rw [hsame h, if_pos h, if_pos h, if_pos h, if_pos h, h]
    exact hjudged
  · rw [hchanged h, if_neg h, if_neg h, if_neg h, if_neg h, State.judgeNeighbours_now, State.cfg, State.judgeNeighbours_request,
      ← State.cfg]
    generalize u.judgeNeighbours.fire = f at hjudged ⊢
    rw [hjudged]

/-- The judgement of the flag and the sequence leaves the zone value, the band and the spread. -/
theorem fireJudged_judgements (u : State) : u.fireJudged.climate.inBand = u.climate.inBand ∧
    u.fireJudged.climate.zone = u.climate.zone ∧ u.fireJudged.climate.spreadHigh = u.climate.spreadHigh ∧
    u.fireJudged.usable = u.usable := by
  rw [fireJudged_frame]
  exact ⟨rfl, rfl, rfl, rfl⟩

theorem fireJudged_formed {u : State} (hzone : u.zoneFormed) (hband : u.bandFormed) :
    u.fireJudged.zoneFormed ∧ u.fireJudged.bandFormed := by
  rw [fireJudged_frame]
  exact ⟨hzone, hband⟩

/-! ### Its notices -/

theorem fireJudged_pendingNotice_other (u : State) {n : Nat} (h0 : n ≠ 0) (h3 : n ≠ 3) (h7 : n ≠ 7) (h10 : n ≠ 10) :
    u.fireJudged.pendingNotice n = u.pendingNotice n :=
  (evaluate_pendingNotice_other _ h0 h7 h10).trans (judgeNeighbours_pendingNotice_other u h3)

theorem keepsOff_fireJudged (u : State) (n : Nat) : u.KeepsOff u.fireJudged n :=
  (keepsOff_judgeNeighbours u n).trans (keepsOff_evaluate _ n)

/-- NEIGHBOUR ALARM is reported where the flag changes, and only there (R137). -/
theorem fireJudged_neighbourAlarm (u : State) (hl : u.notices.pending.length = 16) (hr : u.records 3 = true) :
    if u.fireJudged.fire.neighbourAlert = u.fire.neighbourAlert then u.fireJudged.pendingNotice 3 = u.pendingNotice 3
    else ∃ x, u.fireJudged.pendingNotice 3 = some x ∧
      x.content = .neighbourAlarm u.fireJudged.fire.neighbourAlert u.fireJudged.alertHolders u.custody.zoneClock := by
  have hflag : u.fireJudged.fire.neighbourAlert = u.judgeNeighbours.fire.neighbourAlert := evaluate_neighbourAlert _
  have hholders : u.fireJudged.alertHolders = u.judgeNeighbours.alertHolders := by
    rw [State.alertHolders, State.alertHolders, fireJudged_frame, State.judgeNeighbours_line]
  have hnotice : u.fireJudged.pendingNotice 3 = u.judgeNeighbours.pendingNotice 3 :=
    evaluate_pendingNotice_other _ (by decide) (by decide) (by decide)
  rw [hflag, hholders, hnotice]
  split
  · rw [(judgeNeighbours_spec u).2.2.1 ‹_›]
  · obtain ⟨x, hx, hc⟩ := emit_content u
      (.neighbourAlarm u.judgeNeighbours.fire.neighbourAlert u.judgeNeighbours.alertHolders u.custody.zoneClock) hl hr
    exact ⟨x, (pendingNotice_congr 3 (judgeNeighbours_changed u ‹_›).1).trans hx, hc⟩

/-- FIRE STATE is reported where the evaluation changes the sequence state, and only there (R129). -/
theorem fireJudged_fireState {u : State} {q : Seq} (hq : q = u.evaluatedSeq) (hl : u.notices.pending.length = 16)
    (hr : u.records 0 = true) :
    if q = u.fire.seq then u.fireJudged.pendingNotice 0 = u.pendingNotice 0
    else ∃ x cause alarms faults, u.fireJudged.pendingNotice 0 = some x ∧ x.content = .fireState q u.fire.seq cause alarms faults
      u.fire.callOperated u.fire.callLatch u.fire.holdOn u.fire.isolateOn u.fire.doorOpen u.fire.agentReady u.custody.zoneClock := by
  have hjq : q = u.judgeNeighbours.evaluatedSeq := hq.trans (judgeNeighbours_evaluatedSeq u).symm
  obtain ⟨hframe, _, _, hseq, _⟩ := judgeNeighbours_spec u
  split
  · rw [State.fireJudged, (evaluate_spec _).2.1 (by rw [← hjq, hseq, ‹q = _›])]
    exact judgeNeighbours_pendingNotice_other u (by decide)
  · obtain ⟨x, hx, hc⟩ := evaluate_fireState hjq (by rw [hseq]; exact ‹_›) ((judgeNeighbours_length u).trans hl)
      ((records_congr 0 (State.judgeNeighbours_request u)).trans hr)
    refine ⟨x, u.judgeNeighbours.evaluationCause q, u.judgeNeighbours.alarmChannels, u.judgeNeighbours.faultChannels, hx, hc.trans ?_⟩
    generalize u.judgeNeighbours = j at hframe ⊢
    rw [hframe]
    rfl

end Sys2Proof.Machine

namespace Sys2Proof.Machine

/-! ### The state in which the zone value is formed (R97, R172, R181, R188) -/

/-- The record and the gateway stored, the neighbours flagged, and the notices of the sources now OFF removed. -/
def State.configSet (s : State) (config : ConfigRecord) (sender : Nat) : State :=
  { s with
    request := { s.request with config := some config, gateway := some sender },
    line := { s.line with peers := flagNeighbours config.neighbours 0 s.line.peers },
    notices := ⟨dropOff config.levels s.notices.pending⟩ }

/-- The state once the probes above the count are dropped too. -/
def State.reconfigured (s : State) (config : ConfigRecord) (sender : Nat) : State :=
  ([1, 2, 3, 4].foldl State.dropProbe (s.configSet config sender)).dropHeld

/-- The state once the zone value is formed on it. -/
def State.reformed (s : State) (config : ConfigRecord) (sender : Nat) : State := (s.reconfigured config sender).formation

/-- No channel is UNUSED before configuration, so that no fault is newly grouped (R115, R142). -/
theorem newFaults_default (s : State) : s.newFaults defaultGroups = [] := by
  have hgrouped : ∀ c ∈ channelNumbers, (defaultGroups.getD c .unused == .unused) = false := by decide
  rw [State.newFaults, List.filter_eq_nil_iff]
  intro c hc
  rw [hgrouped c (List.mem_filter.1 hc).1]
  exact Bool.false_ne_true

theorem config_of_unconfigured {s : State} (h : s.configured = false) : s.request.config = none :=
  Option.not_isSome_iff_eq_none.1 (Bool.eq_false_iff.1 h)

/-- The acceptance forms the zone value, then judges the flag and the sequence. -/
theorem acceptConfigure_eq {s : State} (h : s.configured = false) (config : ConfigRecord) (sender : Nat) :
    s.acceptConfigure config sender = (s.reformed config sender).fireJudged := by
  have hgroups : s.cfg.groups = defaultGroups := by
    rw [State.cfg, config_of_unconfigured h]
    rfl
  have hstages : s.acceptConfigure config sender = (s.reformed config sender).configureFire s.cfg.groups := rfl
  rw [hstages, hgroups]
  generalize s.reformed config sender = u
  rw [State.configureFire, newFaults_default]
  rfl

theorem records_of_config {s : State} {config : ConfigRecord} (h : s.request.config = some config) (n : Nat) :
    s.records n = (config.levels.getD n none).isSome := by
  simp only [State.records, State.configured, State.level, State.cfg, h]
  rfl

theorem level_of_records {s : State} {config : ConfigRecord} {n : Nat} (h : s.request.config = some config) (hr : s.records n = true) :
    ∃ l, config.levels[n]? = some (some l) := by
  rw [records_of_config h, List.getD_eq_getElem?_getD] at hr
  cases hlevel : config.levels[n]? with
  | none =>
    rw [hlevel] at hr
    cases hr
  | some level =>
    rw [hlevel] at hr
    obtain ⟨l, hl⟩ := Option.isSome_iff_exists.1 hr
    exact ⟨l, congrArg some hl⟩

/-- The notices stand while the events held for the round are sifted. -/
theorem dropHeld_pendingNotice (s : State) (n : Nat) : s.dropHeld.pendingNotice n = s.pendingNotice n := rfl

theorem dropHeld_probes (s : State) : s.dropHeld.climate.probes = s.climate.probes := rfl

section
variable (s : State) (config : ConfigRecord) (sender : Nat)

theorem reconfigured_frame : ∃ probes notices keep, s.reconfigured config sender = { s.configSet config sender with
    climate := { s.climate with
      probes := probes, round := s.climate.round.map fun x => { x with events := x.events.filter keep } },
    notices := notices } := by
  obtain ⟨probes, notices, h⟩ := foldl_dropProbe_frame [1, 2, 3, 4] (s.configSet config sender)
  rw [State.reconfigured, h]
  exact ⟨probes, notices, _, rfl⟩

theorem reformed_frame : s.reformed config sender = { s.configSet config sender with
    climate := { s.climate with
      probes := (s.reformed config sender).climate.probes, round := (s.reformed config sender).climate.round,
      zone := (s.reformed config sender).climate.zone, spreadHigh := (s.reformed config sender).climate.spreadHigh,
      inBand := (s.reformed config sender).climate.inBand, humidify := (s.reformed config sender).climate.humidify,
      dehumidify := (s.reformed config sender).climate.dehumidify },
    notices := (s.reformed config sender).notices, free := (s.reformed config sender).free } := by
  obtain ⟨_, _, _, _, hformed, _⟩ := formation_spec (s.reconfigured config sender)
  obtain ⟨_, _, _, hr⟩ := reconfigured_frame s config sender
  rw [State.reformed]
  generalize (s.reconfigured config sender).formation = u at hformed ⊢
  generalize s.reconfigured config sender = r at hformed hr
  subst hr
  rw [hformed]

theorem reformed_climate : (s.reformed config sender).climate.probes = (s.reconfigured config sender).climate.probes ∧
    (s.reformed config sender).climate.round = (s.reconfigured config sender).climate.round := by
  rw [State.reformed]
  generalize s.reconfigured config sender = r
  obtain ⟨_, _, _, _, hformed, _⟩ := formation_spec r
  rw [hformed]
  exact ⟨rfl, rfl⟩

theorem configSet_polled (k : Nat) :
    (s.configSet config sender).polled k = (decide (1 ≤ k) && decide (k ≤ config.probeCount)) := rfl

/-- The probes above the count are FAILED without a reading, and the others as they were (R97, R113). -/
theorem reconfigured_probe {k : Nat} (hk : k < 4) : (s.reconfigured config sender).climate.probes[k]? =
    s.climate.probes[k]?.map fun p => if k < config.probeCount then p else p.dropped := by
  have hnumber : k + 1 ∈ [1, 2, 3, 4] := by
    simp only [List.mem_cons, List.not_mem_nil]
    omega
  have hdropped := foldl_dropProbe_probe (ks := [1, 2, 3, 4]) (by decide) (s.configSet config sender) k
  have hstays : (s.configSet config sender).polled (k + 1) = false ↔ ¬k < config.probeCount := by
    rw [configSet_polled, decide_eq_true (Nat.le_add_left 1 k), Bool.true_and, decide_eq_false_iff_not]
    exact Iff.rfl
  rw [State.reconfigured, dropHeld_probes, hdropped]
  simp only [and_iff_right hnumber, hstays]
  by_cases h : k < config.probeCount
  · simp only [if_neg (not_not_intro h), if_pos h, Option.map_id']
    rfl
  · simp only [if_pos h, if_neg h]
    rfl

theorem reconfigured_length {s : State} {config : ConfigRecord} (h : config.levels.length = 16)
    (hl : s.notices.pending.length = 16) : (s.reconfigured config sender).notices.pending.length = 16 :=
  (foldl_dropProbe_length [1, 2, 3, 4] (s.configSet config sender)).trans ((dropOff_length (h.trans hl.symm)).trans hl)

variable {config} {n : Nat}

/-- A source that records keeps its notice, but for the events of probes dropped. -/
theorem reconfigured_pendingNotice {l : Nat} (hlevel : config.levels[n]? = some (some l)) (hn : n ≠ 13) :
    (s.reconfigured config sender).pendingNotice n = s.pendingNotice n := by
  rw [State.reconfigured, dropHeld_pendingNotice, foldl_dropProbe_pendingNotice _ _ hn]
  exact dropOff_getElem? hlevel s.notices.pending

/-- A source that is OFF keeps its notice only while that is being sent (R188). -/
theorem reconfigured_off (hlevel : config.levels[n]? = some none) :
    (s.reconfigured config sender).pendingNotice n = (s.pendingNotice n).filter (·.sending) := by
  have hoff : (s.configSet config sender).records n = false := by
    rw [records_of_config (config := config) rfl, List.getD_eq_getElem?_getD, hlevel]
    rfl
  rw [State.reconfigured, dropHeld_pendingNotice, (keepsOff_foldl_dropProbe _ _ n).off hoff]
  exact dropOff_getElem? hlevel s.notices.pending

end

/-! ### The acceptance (R113, R142, R181) -/

section
variable {s t : State} {config : ConfigRecord} {sender : Nat}

/-- What the acceptance may change. -/
theorem acceptConfigure_frame (hs : s.configured = false) (ht : t = s.acceptConfigure config sender) : t = { s with
    request := { s.request with config := some config, gateway := some sender },
    custody := t.custody, dock := t.dock, fire := t.fire, transfer := t.transfer, notices := t.notices, free := t.free,
    line := { s.line with peers := flagNeighbours config.neighbours 0 s.line.peers, peerOut := t.line.peerOut },
    climate := { s.climate with
      probes := t.climate.probes, round := t.climate.round, zone := t.climate.zone, spreadHigh := t.climate.spreadHigh,
      inBand := t.climate.inBand, humidify := t.climate.humidify, dehumidify := t.climate.dehumidify } } := by
  have hformed := reformed_frame s config sender
  rw [acceptConfigure_eq hs] at ht
  have hjudged := ht.trans (fireJudged_frame _)
  rw [← ht] at hjudged
  generalize s.reformed config sender = u at hformed hjudged
  rw [hformed] at hjudged
  rw [hjudged]
  rfl

/-- The events held for a round in progress are those of before, or fewer (R98, log 21). -/
theorem acceptConfigure_round (hs : s.configured = false) (ht : t = s.acceptConfigure config sender) {round : PollRound}
    (hround : s.climate.round = some round) :
    ∃ events, t.climate.round = some { round with events := events } ∧ events.Sublist round.events := by
  obtain ⟨_, _, keep, hr⟩ := reconfigured_frame s config sender
  have hkept : t.climate.round = (s.reconfigured config sender).climate.round := by
    rw [ht, acceptConfigure_eq hs, fireJudged_frame]
    exact (reformed_climate s config sender).2
  rw [hkept, hr, hround]
  exact ⟨_, rfl, List.filter_sublist⟩

theorem acceptConfigure_probe (hs : s.configured = false) (ht : t = s.acceptConfigure config sender) {k : Nat} {p : ProbeRecord}
    (hk : k < 4) (hp : s.climate.probes[k]? = some p) : t.climate.probes[k]? = some (
      if k < config.probeCount then p else { p with state := .failed, reading := none }) := by
  have hprobes : t.climate.probes = (s.reconfigured config sender).climate.probes := by
    rw [ht, acceptConfigure_eq hs, fireJudged_frame]
    exact (reformed_climate s config sender).1
  rw [hprobes, reconfigured_probe s config sender hk, hp]
  rfl

/-- The zone value, the band and the spread are those of the readings left (R102 to R104, R113). -/
theorem acceptConfigure_formed (hs : s.configured = false) (ht : t = s.acceptConfigure config sender) : t.zoneFormed ∧ t.bandFormed := by
  obtain ⟨_, _, _, _, _, _, hzone, hband⟩ := formation_spec (s.reconfigured config sender)
  rw [← State.reformed] at hzone hband
  rw [ht, acceptConfigure_eq hs]
  exact fireJudged_formed hzone hband

/-- The outputs, OFF until now, are not yet decided (R113). -/
theorem acceptConfigure_outputs (hs : s.configured = false) (ht : t = s.acceptConfigure config sender) (hheld : s.climateHeld = true) :
    t.climate.humidify = s.climate.humidify ∧ t.climate.dehumidify = s.climate.dehumidify := by
  obtain ⟨hh, hd⟩ := outputs_off_of_unconfigured hs hheld
  obtain ⟨_, _, _, hr⟩ := reconfigured_frame s config sender
  obtain ⟨_, _, _, forced, hformed, _⟩ := formation_spec (s.reconfigured config sender)
  have hkept : (s.reformed config sender).climate.humidify = s.climate.humidify ∧
      (s.reformed config sender).climate.dehumidify = s.climate.dehumidify := by
    rw [State.reformed, hformed, hr]
    dsimp only
    rw [turnOff_off hh, turnOff_off hd]
    exact ⟨ite_self _, ite_self _⟩
  rw [ht, acceptConfigure_eq hs, fireJudged_climate (by rw [hkept.1, hh]) (by rw [hkept.2, hd])]
  exact hkept

theorem acceptConfigure_flag (hs : s.configured = false) (ht : t = s.acceptConfigure config sender) :
    t.fire.neighbourAlert = !t.alertHolders.isEmpty := by
  rw [ht, acceptConfigure_eq hs]
  exact fireJudged_flag _

variable {q : Seq}

/-- The sequence is evaluated on the new groups (R142). -/
theorem reformed_evaluatedSeq (hq : q = ({ s with request := ⟨some config, some sender, none⟩ } : State).evaluatedSeq) :
    q = (s.reformed config sender).evaluatedSeq := by
  rw [hq, reformed_frame]
  rfl

theorem reformed_fire (s : State) (config : ConfigRecord) (sender : Nat) : (s.reformed config sender).fire = s.fire := by
  rw [reformed_frame]
  rfl

theorem acceptConfigure_fire (hs : s.configured = false) (ht : t = s.acceptConfigure config sender)
    (hq : q = ({ s with request := ⟨some config, some sender, none⟩ } : State).evaluatedSeq) (hheld : s.fireHeld = true) :
    t.fire = { s.fire with
      seq := q, neighbourAlert := t.fire.neighbourAlert,
      countdown := if q = s.fire.seq then s.fire.countdown
        else if q = .preDischarge then some (s.now + 1000 * config.preDischarge) else none,
      pulse := if q = s.fire.seq then s.fire.pulse else none, soak := if q = s.fire.seq then s.fire.soak else none,
      release := if q = s.fire.seq then s.fire.release else false,
      sounder := sounderFor q s.fire.generalSeen, damperClosed := damperFor q t.fire.neighbourAlert } := by
  simp only [State.fireHeld, Bool.and_eq_true, beq_iff_eq] at hheld
  obtain ⟨⟨_, hsounder⟩, hdamper⟩ := hheld
  have hfire := reformed_fire s config sender
  have hnow : (s.reformed config sender).now = s.now := by rw [reformed_frame]; rfl
  have hcfg : (s.reformed config sender).cfg = config := by rw [reformed_frame]; rfl
  have hjudged := fireJudged_fire (reformed_evaluatedSeq hq) (by rw [hfire]; exact hsounder) (by rw [hfire]; exact hdamper)
  rw [hfire, hnow, hcfg, ← acceptConfigure_eq hs, ← ht] at hjudged
  exact hjudged

/-- Where the evaluation stops no movement, the register, the dock and the transfers are as they were, and the sources that record keep
their notices, but for those that the acceptance reports on. -/
theorem acceptConfigure_still (hs : s.configured = false) (ht : t = s.acceptConfigure config sender)
    (hq : q = ({ s with request := ⟨some config, some sender, none⟩ } : State).evaluatedSeq)
    (hlevels : config.levels.length = 16)
    (h : q = s.fire.seq ∨ seqCode q < 3 ∨ s.dock.session.beforeCommit = false ∧ (∀ e ∈ s.transfer.entries, e.isOffered = false)) :
    t.custody = s.custody ∧ t.dock = s.dock ∧ t.transfer = s.transfer ∧ t.line.peerOut = s.line.peerOut ∧
      ∀ n l, s.notices.pending.length = 16 → config.levels[n]? = some (some l) → n ≠ 0 → n ≠ 3 → n ≠ 12 → n ≠ 13 →
        t.pendingNotice n = s.pendingNotice n := by
  have hframe := reformed_frame s config sender
  have hnotice := fun n l hl (hlevel : config.levels[n]? = some (some l)) h12 h13 =>
    ((formation_notices (s.reconfigured config sender) (reconfigured_length sender hlevels hl)).1 n h12 h13).trans
      (reconfigured_pendingNotice s sender hlevel h13)
  rw [reformed_evaluatedSeq hq, ← reformed_fire s config sender, show s.dock = (s.reformed config sender).dock by rw [hframe]; rfl,
    show s.transfer = (s.reformed config sender).transfer by rw [hframe]; rfl] at h
  obtain ⟨hcustody, hdock, htransfer, hline, hother⟩ := fireJudged_still h
  rw [← acceptConfigure_eq hs, ← ht] at hcustody hdock htransfer hline hother
  refine ⟨?_, ?_, ?_, ?_, fun n l hl hlevel h0 h3 h12 h13 => (hother n h0 h3).trans (hnotice n l hl hlevel h12 h13)⟩
  · rw [hcustody, hframe]; rfl
  · rw [hdock, hframe]; rfl
  · rw [htransfer, hframe]; rfl
  · rw [hline, hframe]; rfl

end

end Sys2Proof.Machine

namespace Sys2Proof.Machine

/-! ### The notices of the acceptance (R101, R104, R129, R137, R188) -/

section
variable {s t : State} {config : ConfigRecord} {sender : Nat}

theorem reconfigured_request (s : State) (config : ConfigRecord) (sender : Nat) :
    (s.reconfigured config sender).request = { s.request with config := some config, gateway := some sender } := by
  obtain ⟨_, _, _, hr⟩ := reconfigured_frame s config sender
  rw [hr]
  rfl

theorem reformed_request (s : State) (config : ConfigRecord) (sender : Nat) :
    (s.reformed config sender).request = (s.reconfigured config sender).request := (keepsOff_formation _ 0).request

theorem acceptConfigure_request (hs : s.configured = false) (ht : t = s.acceptConfigure config sender) :
    t.request = (s.reconfigured config sender).request := by
  rw [ht, acceptConfigure_eq hs, (keepsOff_fireJudged _ 0).request, reformed_request]

/-- A source that records at the end has a level, and recorded when the zone value was formed. -/
theorem level_of_acceptConfigure (hs : s.configured = false) (ht : t = s.acceptConfigure config sender) {n : Nat}
    (hr : t.records n = true) : (∃ l, config.levels[n]? = some (some l)) ∧ (s.reconfigured config sender).records n = true := by
  have hrequest := acceptConfigure_request hs ht
  refine ⟨level_of_records (s := t) ?_ hr, (records_congr n hrequest).symm.trans hr⟩
  rw [hrequest, reconfigured_request]

/-- The formation's events leave the notice table's length. -/
theorem formation_length (s : State) : s.formation.notices.pending.length = s.notices.pending.length := by
  have hspread : s.judgeSpread.notices.pending.length = s.notices.pending.length := by
    obtain ⟨h, _⟩ | ⟨_, _, _, _, _, h, _⟩ := judgeSpread_notices s <;> rw [h]
    exact emit_length s _
  have hband (u : State) : u.judgeBand.notices.pending.length = u.notices.pending.length := by
    unfold State.judgeBand
    split
    · rfl
    · exact emit_length _ _
  rw [State.formation, hband, State.formZone, State.forceOutputs_notices]
  exact hspread

theorem reformed_length (sender : Nat) (hlevels : config.levels.length = 16) (hl : s.notices.pending.length = 16) :
    (s.reformed config sender).notices.pending.length = 16 :=
  (formation_length _).trans (reconfigured_length sender hlevels hl)

theorem acceptConfigure_off (hs : s.configured = false) (ht : t = s.acceptConfigure config sender) {n : Nat}
    (hlevel : config.levels[n]? = some none) : t.pendingNotice n = (s.pendingNotice n).filter (·.sending) := by
  have hoff : (s.reconfigured config sender).records n = false := by
    rw [records_of_config (by rw [reconfigured_request]), List.getD_eq_getElem?_getD, hlevel]
    rfl
  have hkept := (keepsOff_formation _ n).trans (keepsOff_fireJudged (s.reformed config sender) n)
  rw [← acceptConfigure_eq hs, ← ht] at hkept
  exact (hkept.off hoff).trans (reconfigured_off s sender hlevel)

/-- The sources that the judgement of the flag and the sequence never report on stand as the formation left them. -/
theorem acceptConfigure_pendingNotice (hs : s.configured = false) (ht : t = s.acceptConfigure config sender) {n : Nat}
    (h0 : n ≠ 0) (h3 : n ≠ 3) (h7 : n ≠ 7) (h10 : n ≠ 10) : t.pendingNotice n = (s.reformed config sender).pendingNotice n := by
  rw [ht, acceptConfigure_eq hs]
  exact fireJudged_pendingNotice_other _ h0 h3 h7 h10

/-- What the judgement of the flag and the sequence leave of the climate unit, the outputs apart. -/
theorem acceptConfigure_climate (hs : s.configured = false) (ht : t = s.acceptConfigure config sender) :
    t.climate.inBand = (s.reformed config sender).climate.inBand ∧ t.climate.zone = (s.reformed config sender).climate.zone ∧
      t.climate.spreadHigh = (s.reformed config sender).climate.spreadHigh ∧ t.usable = (s.reformed config sender).usable := by
  rw [ht, acceptConfigure_eq hs]
  exact fireJudged_judgements _

theorem reconfigured_climate (s : State) (config : ConfigRecord) (sender : Nat) :
    (s.reconfigured config sender).climate.inBand = s.climate.inBand ∧
      (s.reconfigured config sender).climate.spreadHigh = s.climate.spreadHigh := by
  obtain ⟨_, _, _, hr⟩ := reconfigured_frame s config sender
  rw [hr]
  exact ⟨rfl, rfl⟩

/-- ZONE BAND is reported where the band changes, and only there (R104). -/
theorem acceptConfigure_zoneBand (hs : s.configured = false) (ht : t = s.acceptConfigure config sender)
    (hlevels : config.levels.length = 16) (hl : s.notices.pending.length = 16) (hr : t.records 12 = true) :
    if t.climate.inBand = s.climate.inBand then t.pendingNotice 12 = s.pendingNotice 12
    else ∃ x, t.pendingNotice 12 = some x ∧ x.content = .zoneBand t.climate.inBand t.climate.zone := by
  obtain ⟨⟨l, hlevel⟩, hrecords⟩ := level_of_acceptConfigure hs ht hr
  obtain ⟨_, hsame, hchanged, _⟩ := formation_notices (s.reconfigured config sender) (reconfigured_length sender hlevels hl)
  obtain ⟨hband, hzone, _⟩ := acceptConfigure_climate hs ht
  obtain ⟨hbefore, _⟩ := reconfigured_climate s config sender
  rw [acceptConfigure_pendingNotice hs ht (by decide) (by decide) (by decide) (by decide), hband, hzone, ← hbefore]
  split
  · exact (hsame ‹_›).trans (reconfigured_pendingNotice s sender hlevel (by decide))
  · exact hchanged ‹_› hrecords

/-- NEIGHBOUR ALARM is reported where the flag changes, and only there (R137). -/
theorem acceptConfigure_neighbourAlarm (hs : s.configured = false) (ht : t = s.acceptConfigure config sender)
    (hlevels : config.levels.length = 16) (hl : s.notices.pending.length = 16) (hr : t.records 3 = true) :
    if t.fire.neighbourAlert = s.fire.neighbourAlert then t.pendingNotice 3 = s.pendingNotice 3
    else ∃ x, t.pendingNotice 3 = some x ∧
      x.content = .neighbourAlarm t.fire.neighbourAlert t.alertHolders s.custody.zoneClock := by
  obtain ⟨⟨l, hlevel⟩, hrecords⟩ := level_of_acceptConfigure hs ht hr
  obtain ⟨hother, _⟩ := formation_notices (s.reconfigured config sender) (reconfigured_length sender hlevels hl)
  have hbefore : (s.reformed config sender).pendingNotice 3 = s.pendingNotice 3 :=
    (hother 3 (by decide) (by decide)).trans (reconfigured_pendingNotice s sender hlevel (by decide))
  have hclock : (s.reformed config sender).custody = s.custody := by rw [reformed_frame]; rfl
  have hreported := fireJudged_neighbourAlarm _ (reformed_length sender hlevels hl)
    ((records_congr 3 (reformed_request s config sender)).trans hrecords)
  rw [← acceptConfigure_eq hs, ← ht, reformed_fire, hbefore, hclock] at hreported
  exact hreported

/-- FIRE STATE is reported where the sequence state changes, and only there (R129). -/
theorem acceptConfigure_fireState {q : Seq} (hs : s.configured = false) (ht : t = s.acceptConfigure config sender)
    (hq : q = ({ s with request := ⟨some config, some sender, none⟩ } : State).evaluatedSeq) (hlevels : config.levels.length = 16)
    (hl : s.notices.pending.length = 16) (hr : t.records 0 = true) :
    if q = s.fire.seq then t.pendingNotice 0 = s.pendingNotice 0
    else ∃ x previous cause alarms faults, t.pendingNotice 0 = some x ∧ x.content = .fireState q previous cause alarms faults
      s.fire.callOperated s.fire.callLatch s.fire.holdOn s.fire.isolateOn s.fire.doorOpen s.fire.agentReady
      s.custody.zoneClock ∧ previous = s.fire.seq := by
  obtain ⟨⟨l, hlevel⟩, hrecords⟩ := level_of_acceptConfigure hs ht hr
  obtain ⟨hother, _⟩ := formation_notices (s.reconfigured config sender) (reconfigured_length sender hlevels hl)
  have hbefore : (s.reformed config sender).pendingNotice 0 = s.pendingNotice 0 :=
    (hother 0 (by decide) (by decide)).trans (reconfigured_pendingNotice s sender hlevel (by decide))
  have hclock : (s.reformed config sender).custody = s.custody := by rw [reformed_frame]; rfl
  have hreported := fireJudged_fireState (reformed_evaluatedSeq hq) (reformed_length sender hlevels hl)
    ((records_congr 0 (reformed_request s config sender)).trans hrecords)
  rw [← acceptConfigure_eq hs, ← ht, reformed_fire, hbefore, hclock] at hreported
  split
  · rwa [if_pos ‹_›] at hreported
  · rw [if_neg ‹_›] at hreported
    obtain ⟨x, cause, alarms, faults, hx, hc⟩ := hreported
    exact ⟨x, _, cause, alarms, faults, hx, hc, rfl⟩

/-- The probes are dropped in ascending number (log 42). -/
theorem probes_ascending {k : Nat} (h1 : 1 ≤ k) (h4 : k ≤ 4) :
    [1, 2, 3, 4] = List.range' 1 (k - 1) ++ k :: List.range' (k + 1) (4 - k) := by
  interval_cases k <;> rfl

/-- PROBE reports the last probe dropped with a reading, where the spread does not become high after it (R101). -/
theorem acceptConfigure_probeDropped (hs : s.configured = false) (ht : t = s.acceptConfigure config sender)
    (hlevels : config.levels.length = 16) (hl : s.notices.pending.length = 16) (hr : t.records 13 = true) {k : Nat} {p : ProbeRecord}
    {y : Reading} (hk : config.probeCount < k) (h4 : k ≤ 4) (hp : s.climate.probes[k - 1]? = some p) (hstate : p.state ≠ .failed)
    (hy : p.reading = some y) (hlater : ∀ j x, k < j → j ≤ 4 → s.climate.probes[j - 1]? = some x → x.state = .failed)
    (hspread : t.climate.spreadHigh = false ∨ s.climate.spreadHigh = true) :
    ∃ x, t.pendingNotice 13 = some x ∧ x.content = .probe k .failed y := by
  obtain ⟨_, hrecords⟩ := level_of_acceptConfigure hs ht hr
  obtain ⟨_, _, _, hstays, _⟩ := formation_notices (s.reconfigured config sender) (reconfigured_length sender hlevels hl)
  obtain ⟨_, _, hspread', _⟩ := acceptConfigure_climate hs ht
  obtain ⟨_, hbefore⟩ := reconfigured_climate s config sender
  rw [hspread', ← hbefore] at hspread
  have hascending := probes_ascending (k := k) (by omega) h4
  have hdropped : ∃ x, ([1, 2, 3, 4].foldl State.dropProbe (s.configSet config sender)).pendingNotice 13 = some x ∧
      x.content = .probe k .failed y := by
    have hnumbers : ∀ j ∈ [1, 2, 3, 4], 1 ≤ j := by decide
    have hlength : (s.configSet config sender).notices.pending.length = 16 := (dropOff_length (hlevels.trans hl.symm)).trans hl
    have hpolled : (s.configSet config sender).polled k = false := by
      rw [configSet_polled, decide_eq_false (Nat.not_le.2 hk), Bool.and_false]
    rw [hascending] at hnumbers ⊢
    refine foldl_dropProbe_reported hnumbers ?_ hlength ((records_congr 13 (reconfigured_request s config sender)).symm.trans hrecords)
      hpolled hp hstate hy fun j hj x hx => ?_
    · rw [List.mem_range'_1]
      omega
    · rw [List.mem_range'_1] at hj
      exact hlater j x (by omega) (by omega) hx
  rw [acceptConfigure_pendingNotice hs ht (by decide) (by decide) (by decide) (by decide), State.reformed, hstays hspread,
    State.reconfigured, dropHeld_pendingNotice]
  exact hdropped

/-- PROBE reports the spread where it becomes high, with a probe of the highest and one of the lowest reading (R103). -/
theorem acceptConfigure_spreadHigh (hs : s.configured = false) (ht : t = s.acceptConfigure config sender)
    (hlevels : config.levels.length = 16) (hl : s.notices.pending.length = 16) (hr : t.records 13 = true)
    (hhigh : t.climate.spreadHigh = true) (hlow : s.climate.spreadHigh = false) :
    ∃ x a b high low, t.pendingNotice 13 = some x ∧ x.content = .spreadHigh (high.rh - low.rh) a b ∧ (a, high) ∈ t.usable ∧
      (b, low) ∈ t.usable ∧ ∀ y ∈ t.usable, low.rh ≤ y.2.rh ∧ y.2.rh ≤ high.rh := by
  obtain ⟨_, hrecords⟩ := level_of_acceptConfigure hs ht hr
  obtain ⟨_, _, _, _, hrises⟩ := formation_notices (s.reconfigured config sender) (reconfigured_length sender hlevels hl)
  obtain ⟨_, _, hspread, husable⟩ := acceptConfigure_climate hs ht
  obtain ⟨_, hbefore⟩ := reconfigured_climate s config sender
  rw [acceptConfigure_pendingNotice hs ht (by decide) (by decide) (by decide) (by decide), husable]
  exact hrises (hspread.symm.trans hhigh) (hbefore.trans hlow) hrecords

end

end Sys2Proof.Machine

namespace Sys2Proof.Machine

/-! ### CONFIGURE taken (R181) -/

theorem configureReply_configured {s : State} (h : s.configured = true) (r : Request) :
    configureReply r s = s.refuse .alreadyConfigured := if_pos h

theorem configureReply_unconfigured {s : State} (h : s.configured = false) (r : Request) : configureReply r s =
    ⟨s.acceptConfigure (configFrom s.line.address r.sender (configEntries (requestFields r.payload))) r.sender, .done,
      listBytes (namedItems s.line.address r.sender (configEntries (requestFields r.payload)))⟩ :=
  if_neg (Bool.eq_false_iff.1 h)

/-- FIRE STATE is never OFF, for its level is fixed (R185). -/
theorem configFrom_fireState (own sender : Nat) (entries : List ConfigEntry) :
    (configFrom own sender entries).levels[0]? = some (some 0) := by
  have h : levelTaken entries (configFrom own sender entries) 0 0 0 false 0 :=
    levelTaken_source entries (row := ⟨0, 0, false, 0, true⟩) rfl rfl
  rw [levelTaken] at h
  refine h.trans (congrArg some ?_)
  cases (entries.filter fun e => e.item == 22 && e.third == 0).getLast? with
  | none => rfl
  | some e => simp

theorem records_of_level {s t : State} {config : ConfigRecord} {sender n l : Nat} (hs : s.configured = false)
    (ht : t = s.acceptConfigure config sender) (hlevel : config.levels[n]? = some (some l)) : t.records n = true := by
  have hrequest := acceptConfigure_request hs ht
  rw [reconfigured_request] at hrequest
  rw [records_of_config (by rw [hrequest]), List.getD_eq_getElem?_getD, hlevel]
  rfl

/-- The line unit of an accepted configuration: each peer flagged by its own address (R172). -/
theorem acceptConfigure_peers {s t : State} {config : ConfigRecord} {sender : Nat} (hs : s.configured = false)
    (ht : t = s.acceptConfigure config sender) : t.line.peers.length = s.line.peers.length ∧
      ∀ (a : Nat) (p : PeerEntry), s.line.peers[a]? = some p →
        t.line.peers[a]? = some { p with neighbour := config.neighbours.contains a } := by
  have hpeers : t.line.peers = flagNeighbours config.neighbours 0 s.line.peers := by
    rw [acceptConfigure_frame hs ht]
  rw [hpeers]
  refine ⟨flagNeighbours_length _ _ _, fun a p hp => ?_⟩
  rw [flagNeighbours_getElem?, hp, Nat.zero_add]
  rfl

/-- Settles O22: a configured station refuses; an unconfigured one accepts by `State.acceptConfigure`, whose changes the lemmas of that
name give block by block. -/
theorem configureIsAcceptedOnce : Obligations.ConfigureIsAcceptedOnce := by
  intro s r rest config q h hk hw hconfig hq
  have hp : s.passes .configure := ⟨.inr (.inl rfl), nofun⟩
  refine ⟨fun hs => ?_, fun hunconfigured => ?_⟩
  · exact taken_unchanged h hp hk rfl hw (configureReply_configured (s := s.popped rest) hs r)
  have hs : (s.popped rest).configured = false := hunconfigured
  obtain ⟨t, ht⟩ : ∃ t, t = (s.popped rest).acceptConfigure config r.sender := ⟨_, rfl⟩
  have howner : configureReply r (s.popped rest) =
      ⟨t, .done, listBytes (namedItems s.line.address r.sender (configEntries (requestFields r.payload)))⟩ := by
    rw [ht, hconfig]
    exact configureReply_unconfigured hs r
  have hlevels : config.levels.length = 16 := hconfig ▸ levelsFrom_length _
  have hfireState : config.levels[0]? = some (some 0) := hconfig ▸ configFrom_fireState _ _ _
  obtain ⟨_, hwait, _⟩ := id h
  have hframe := acceptConfigure_frame hs ht
  obtain ⟨hcount, hflagged⟩ := acceptConfigure_peers hs ht
  have hstill := acceptConfigure_still hs ht hq hlevels
  have hprobe := fun k p => acceptConfigure_probe hs ht (k := k) (p := p)
  obtain ⟨hzone, hband⟩ := acceptConfigure_formed hs ht
  have houtputs := acceptConfigure_outputs hs ht
  have hround := fun round => acceptConfigure_round hs ht (round := round)
  have hflag := acceptConfigure_flag hs ht
  have hfire := acceptConfigure_fire hs ht hq
  have hoff := fun n => acceptConfigure_off hs ht (n := n)
  have hzoneBand := acceptConfigure_zoneBand hs ht hlevels
  have halarm := acceptConfigure_neighbourAlarm hs ht hlevels
  have hdropped := fun k p y hl hr => acceptConfigure_probeDropped hs ht hlevels hl hr (k := k) (p := p) (y := y)
  have hspread := acceptConfigure_spreadHigh hs ht hlevels
  have hseq := fun hl => acceptConfigure_fireState hs ht hq hlevels hl (records_of_level hs ht hfireState)
  refine ⟨_, taken_reply h .configure hp hk rfl hw _ howner, ?_, hcount, hflagged, hstill,
    ⟨congrArg State.climate hframe, hprobe, hzone, hband, houtputs, hround⟩, hflag, hfire, fun hl =>
      ⟨hoff, hzoneBand hl, halarm hl, fun k p y => hdropped k p y hl, hspread hl, hseq hl⟩⟩
  rw [hframe, ← hwait]
  rfl

end Sys2Proof.Machine

namespace Sys2Proof.Machine

/-! ### Recording an event (R185, R186) -/

/-- An event on a source that records nothing is discarded (R185). -/
theorem emit_of_not_records {s : State} {e : Event} (h : s.records e.source = false) : s.emit e = s := by
  rw [State.emit, h, if_neg Bool.false_ne_true]

/-- A first event makes a pending notice with nothing counted (R186). -/
theorem recordEvent_none (clock : Nat) (e : Event) : recordEvent clock e none = ⟨e, 0, clock, false, 0⟩ := rfl

/-- A later event replaces content and time and is counted, in the slot too where the notice is being sent (R186). -/
theorem recordEvent_some (clock : Nat) (e : Event) (x : PendingNotice) :
    recordEvent clock e (some x) =
      { x with content := e, time := clock, repeats := min (x.repeats + 1) 255,
               inSlot := if x.sending then min (x.inSlot + 1) 256 else x.inSlot } := rfl

/-- Settles O36: the source's own notice is `emit_pendingNotice_self`, by whether one was pending; every other source's is
`emit_pendingNotice_other`. -/
theorem eventsCoalesceOnTheirSource : Obligations.EventsCoalesceOnTheirSource := by
  intro s e hlength
  refine ⟨emit_of_not_records, fun hrecords => ?_⟩
  have hself := emit_pendingNotice_self s e hlength hrecords
  refine ⟨emit_pendingNotice_other s e, fun hnone => ?first, fun x hx => ?later⟩
  case first => rw [hself, hnone, recordEvent_none]
  case later => rw [hself, hx, recordEvent_some]

end Sys2Proof.Machine

namespace Sys2Proof.Machine

/-! ### The queue and the time base together

Every operation of the model is a chain of updates of single blocks, with a choice between such chains where it judges something. No block holds
the queue of waiting commands or the time base, so each operation leaves both as they are. The lemmas below say so once per operation: a choice
is split along its branches, and a branch ends by the lemmas of what it calls. -/

/-- What O2 speaks of: the commands that are waiting, and the time base. -/
def State.schedule (s : State) : List Instr × Nat := (s.pending, s.now)

theorem schedule_eq_iff {s t : State} : t.schedule = s.schedule ↔ t.pending = s.pending ∧ t.now = s.now := Prod.mk_inj

@[simp] theorem withPins_schedule (s : State) (b : Pins) : (s.withPins b).schedule = s.schedule := rfl
@[simp] theorem withDock_schedule (s : State) (b : DockUnit) : (s.withDock b).schedule = s.schedule := rfl
@[simp] theorem withClimate_schedule (s : State) (b : ClimateUnit) : (s.withClimate b).schedule = s.schedule := rfl
@[simp] theorem withFire_schedule (s : State) (b : FireUnit) : (s.withFire b).schedule = s.schedule := rfl
@[simp] theorem withLine_schedule (s : State) (b : LineUnit) : (s.withLine b).schedule = s.schedule := rfl
@[simp] theorem withFree_schedule (s : State) (n : Nat) : (s.withFree n).schedule = s.schedule := rfl

/-! ### Records, entries, queues and notices -/

@[simp] theorem putRecord_schedule (s : State) (r : Record) : (s.putRecord r).schedule = s.schedule := rfl
@[simp] theorem eraseRecord_schedule (s : State) (id : Ident) : (s.eraseRecord id).schedule = s.schedule := rfl
@[simp] theorem freeManifest_schedule (s : State) (n : Nat) : (s.freeManifest n).schedule = s.schedule := rfl
@[simp] theorem putEntry_schedule (s : State) (e : TransferEntry) : (s.putEntry e).schedule = s.schedule := rfl
@[simp] theorem eraseEntry_schedule (s : State) (id : Ident) : (s.eraseEntry id).schedule = s.schedule := rfl
@[simp] theorem queueAnswer_schedule (s : State) (a : Answer) : (s.queueAnswer a).schedule = s.schedule := rfl
@[simp] theorem queuePeer_schedule (s : State) (m : PeerOut) : (s.queuePeer m).schedule = s.schedule := rfl

@[simp] theorem emit_schedule (s : State) (e : Event) : (s.emit e).schedule = s.schedule := schedule_eq_iff.2 (by simp)
@[simp] theorem emitAll_schedule (s : State) (l : List Event) : (s.emitAll l).schedule = s.schedule := schedule_eq_iff.2 (by simp)
@[simp] theorem forceOutputs_schedule (s : State) : s.forceOutputs.schedule = s.schedule := schedule_eq_iff.2 (by simp)

@[simp] theorem endManifest_schedule (s : State) (n : Nat) (m : Manifest) (c : ManifestEnd) :
    (s.endManifest n m c).schedule = s.schedule := by simp [State.endManifest]

@[simp] theorem keepCartridge_schedule (s : State) (e : TransferEntry) (o : TransferOutcome) (r : Option Byte) :
    (s.keepCartridge e o r).schedule = s.schedule := schedule_eq_iff.2 (by simp)

@[simp] theorem dropCartridge_schedule (s : State) (e : TransferEntry) (o : TransferOutcome) :
    (s.dropCartridge e o).schedule = s.schedule := schedule_eq_iff.2 (by simp)

/-- A free choice draws from the count of free values alone (log 7). -/
theorem schedule_of_choose {α : Type} {s t : State} {l : List α} {x : Option α} (h : s.choose l = (x, t)) :
    t.schedule = s.schedule := by
  obtain ⟨n, hn⟩ := choose_snd s l
  rw [h] at hn
  rw [show t = s.withFree n from hn, withFree_schedule]

/-- A repeated change of the blocks alone. -/
theorem repeatStep_schedule {f : State → State} (h : ∀ t : State, (f t).schedule = t.schedule) (n : Nat) (s : State) :
    (repeatStep f n s).schedule = s.schedule := by
  induction n generalizing s with
  | zero => rfl
  | succ n ih => exact (ih (f s)).trans (h s)

/-! ### Sessions and the fire sequence -/

@[simp] theorem sendNext_schedule (s : State) : s.sendNext.schedule = s.schedule := schedule_eq_iff.2 (by simp)
@[simp] theorem sendAtOnce_schedule (s : State) : s.sendAtOnce.schedule = s.schedule := schedule_eq_iff.2 (by simp)
@[simp] theorem endExchange_schedule (s : State) : s.endExchange.schedule = s.schedule := schedule_eq_iff.2 (by simp)
@[simp] theorem endUncommitted_schedule (s : State) (o : SessionOutcome) : (s.endUncommitted o).schedule = s.schedule :=
  schedule_eq_iff.2 (by simp)
@[simp] theorem endCommitted_schedule (s : State) (o : SessionOutcome) : (s.endCommitted o).schedule = s.schedule :=
  schedule_eq_iff.2 (by simp)
@[simp] theorem frameFault_schedule (s : State) : s.frameFault.schedule = s.schedule := schedule_eq_iff.2 (by simp)
@[simp] theorem refreshFireOutputs_schedule (s : State) : s.refreshFireOutputs.schedule = s.schedule := rfl
@[simp] theorem enterSeq_schedule (s : State) (q : Seq) (c : FireCause) : (s.enterSeq q c).schedule = s.schedule :=
  schedule_eq_iff.2 (by simp)
@[simp] theorem judgeNeighbours_schedule (s : State) : s.judgeNeighbours.schedule = s.schedule := schedule_eq_iff.2 (by simp)
@[simp] theorem evaluate_schedule (s : State) : s.evaluate.schedule = s.schedule := schedule_eq_iff.2 (by simp)
@[simp] theorem judgeSwitches_schedule (s : State) : s.judgeSwitches.schedule = s.schedule := schedule_eq_iff.2 (by simp)
@[simp] theorem inputSurvey_schedule (s : State) : s.inputSurvey.schedule = s.schedule := schedule_eq_iff.2 (by simp)

/-! ### Follow-on steps -/

@[simp] theorem rolloverStep_schedule (s : State) : s.rolloverStep.schedule = s.schedule := by
  unfold State.rolloverStep
  split
  · exact schedule_eq_iff.2 (by simp)
  · rfl

@[simp] theorem completeStep_schedule (s : State) : s.completeStep.schedule = s.schedule := schedule_eq_iff.2 (by simp)
@[simp] theorem expireManifestStep_schedule (s : State) : s.expireManifestStep.schedule = s.schedule := schedule_eq_iff.2 (by simp)
@[simp] theorem expireTransit_schedule (s : State) (e : TransferEntry) : (s.expireTransit e).schedule = s.schedule :=
  schedule_eq_iff.2 (by simp)
@[simp] theorem superframeStep_schedule (s : State) : s.superframeStep.schedule = s.schedule := schedule_eq_iff.2 (by simp)
@[simp] theorem setPeer_schedule (s : State) (a : Nat) (p : PeerEntry) : (s.setPeer a p).schedule = s.schedule := rfl
@[simp] theorem makeAbsent_schedule (s : State) (a : Nat) : (s.makeAbsent a).schedule = s.schedule := schedule_eq_iff.2 (by simp)

theorem expireOneTransit_schedule (s : State) : s.expireOneTransit.schedule = s.schedule := by
  unfold State.expireOneTransit
  split
  · next e t h => exact (expireTransit_schedule t e).trans (schedule_of_choose h)
  · next t h => exact schedule_of_choose h

theorem abandonOne_schedule (s : State) : s.abandonOne.schedule = s.schedule := by
  unfold State.abandonOne
  split
  · next e t h => exact (dropCartridge_schedule t e _).trans (schedule_of_choose h)
  · next t h => exact schedule_of_choose h

theorem absentOne_schedule (s : State) : s.absentOne.schedule = s.schedule := by
  unfold State.absentOne
  split
  · next a t h => exact (makeAbsent_schedule t a).trans (schedule_of_choose h)
  · next t h => exact schedule_of_choose h

@[simp] theorem settle_schedule (s : State) : s.settle.schedule = s.schedule :=
  calc s.settle.schedule
    _ = s.settleManifests.settleTransits.settleInbound.superframeStep.schedule := repeatStep_schedule absentOne_schedule _ _
    _ = s.settleManifests.settleTransits.settleInbound.schedule := superframeStep_schedule _
    _ = s.settleManifests.settleTransits.schedule := repeatStep_schedule abandonOne_schedule _ _
    _ = s.settleManifests.schedule := repeatStep_schedule expireOneTransit_schedule _ _
    _ = s.schedule := repeatStep_schedule expireManifestStep_schedule _ _

/-! ### Minutes and resets -/

@[simp] theorem minuteStep_schedule (s : State) : s.minuteStep.schedule = s.schedule := by
  have hcharge (t : State) : t.chargeExcursion.schedule = t.schedule := by
    unfold State.chargeExcursion
    dsimp only
    (repeat' split) <;> simp
  unfold State.minuteStep
  split
  · exact hcharge _
  · rfl

/-- A second moves the time base and leaves the queue (R13). -/
theorem second_pending (s : State) : s.second.pending = s.pending := by
  unfold State.second
  (repeat' split) <;> simp

@[simp] theorem warmReset_schedule (s : State) (c : ResetCause) : (s.warmReset c).schedule = s.schedule :=
  (inputSurvey_schedule _).trans (emit_schedule _ _)

@[simp] theorem requestedReset_schedule (s : State) : s.requestedReset.schedule = s.schedule := by
  unfold State.requestedReset
  split
  · rfl
  · exact warmReset_schedule s _

/-! ### The climate unit -/

theorem emitSpread_schedule (s : State) : s.emitSpread.schedule = s.schedule := by
  unfold State.emitSpread
  split
  · next t h => exact schedule_of_choose h
  · next highest t h =>
    split
    · next u k => exact (schedule_of_choose k).trans (schedule_of_choose h)
    · next lowest u k => exact (emit_schedule u _).trans ((schedule_of_choose k).trans (schedule_of_choose h))

@[simp] theorem formation_schedule (s : State) : s.formation.schedule = s.schedule := by
  have hspread (t : State) : t.judgeSpread.schedule = t.schedule := by
    unfold State.judgeSpread
    dsimp only
    split
    · exact emitSpread_schedule _
    · rfl
  have hband (t : State) : t.judgeBand.schedule = t.schedule := by
    unfold State.judgeBand
    split
    · rfl
    · exact emit_schedule _ _
  rw [State.formation, hband, State.formZone, forceOutputs_schedule, withClimate_schedule, hspread]

@[simp] theorem decideOutputs_schedule (s : State) : s.decideOutputs.schedule = s.schedule := by
  unfold State.decideOutputs
  split <;> rfl

@[simp] theorem setProbe_schedule (s : State) (k : Nat) (p : ProbeRecord) : (s.setProbe k p).schedule = s.schedule := rfl

theorem startRound_schedule (s : State) : s.startRound.schedule = s.schedule := by
  unfold State.startRound
  (repeat' split) <;> rfl

@[simp] theorem nextProbe_schedule (s : State) (k : Nat) (l : List Event) : (s.nextProbe k l).schedule = s.schedule := by
  unfold State.nextProbe
  split
  · rfl
  · simp [State.endRound]

@[simp] theorem endProbe_schedule (s : State) (round : PollRound) (a : Option Reading) : (s.endProbe round a).schedule = s.schedule := by
  unfold State.endProbe
  split <;> simp

theorem hearProbe_schedule (s : State) (bytes : List Byte) : (s.hearProbe bytes).schedule = s.schedule := by
  unfold State.hearProbe
  split
  · rfl
  · split
    · rfl
    · exact endProbe_schedule s _ _

theorem probeTimesOut_schedule (s : State) : s.probeTimesOut.schedule = s.schedule := by
  unfold State.probeTimesOut
  split <;> simp

/-! ### The dock unit -/

theorem caseArrives_schedule (s : State) : s.caseArrives.schedule = s.schedule := by
  have hstart (t : State) : t.startSession.schedule = t.schedule := sendNext_schedule _
  unfold State.caseArrives
  dsimp only
  split
  · split
    · rw [emit_schedule, withDock_schedule, withPins_schedule]
    · rw [hstart, withPins_schedule]
  · rfl

theorem caseLeaves_schedule (s : State) : s.caseLeaves.schedule = s.schedule := by
  unfold State.caseLeaves
  dsimp only
  split <;> simp

theorem closePressed_schedule (s : State) : s.closePressed.schedule = s.schedule := by
  unfold State.closePressed
  split
  · split
    · exact endUncommitted_schedule s _
    · rw [sendAtOnce_schedule, withDock_schedule]
  · rfl

theorem cancelPressed_schedule (s : State) : s.cancelPressed.schedule = s.schedule := by
  unfold State.cancelPressed
  split <;> simp

@[simp] theorem enterLoading_schedule (s : State) (m : Option Nat) : (s.enterLoading m).schedule = s.schedule := rfl
@[simp] theorem setVerdict_schedule (s : State) (v : Verdict) : (s.setVerdict v).schedule = s.schedule := rfl
@[simp] theorem appendScan_schedule (s : State) (e : ScanEntry) : (s.appendScan e).schedule = s.schedule := rfl

theorem bindManifest_schedule {s t : State} {n : Nat} (h : s.bindManifest n = some t) : t.schedule = s.schedule := by
  unfold State.bindManifest at h
  split at h
  · cases h
  · split at h
    · cases h
    · cases h
      rfl

@[simp] theorem judgeDepartScan_schedule (s : State) (id : Ident) : (s.judgeDepartScan id).schedule = s.schedule := by
  unfold State.judgeDepartScan
  (repeat' split) <;> simp

@[simp] theorem judgeReturnScan_schedule (s : State) (id : Ident) : (s.judgeReturnScan id).schedule = s.schedule := by
  unfold State.judgeReturnScan
  (repeat' split) <;> simp

@[simp] theorem judgeScan_schedule (s : State) (id : Ident) : (s.judgeScan id).schedule = s.schedule := by
  unfold State.judgeScan
  dsimp only
  (repeat' split) <;> simp

/-- A commit changes the register, the manifests and the dock, and emits (R67, R68). -/
@[simp] theorem commitPoint_schedule (s : State) (i : CaseIdentity) : (s.commitPoint i).schedule = s.schedule := by
  have hdepart : (s.commitDepart i).schedule = s.schedule := rfl
  have hreturn : (s.commitReturn i).schedule = s.schedule := by
    simp [State.commitReturn, foldl_keeps State.schedule _ putRecord_schedule]
  unfold State.commitPoint
  dsimp only
  rw [withDock_schedule]
  split
  · split
    · exact hreturn
    · exact hdepart
  · rfl

@[simp] theorem judgeEcho_schedule (s : State) (n : Byte) (d : Word16) : (s.judgeEcho n d).schedule = s.schedule := by
  unfold State.judgeEcho
  split
  · split
    · exact commitPoint_schedule s _
    · exact endUncommitted_schedule s _
  · exact endUncommitted_schedule s _

@[simp] theorem judgeDone_schedule (s : State) (n : Word16) : (s.judgeDone n).schedule = s.schedule := by
  unfold State.judgeDone
  split <;> simp

@[simp] theorem takeIdentity_schedule (s : State) (caseId : BitVec 32) (badge : BitVec 24) (count : Word16) (intent : Byte)
    (intervals : List RawInterval) : (s.takeIdentity caseId badge count intent intervals).schedule = s.schedule := emit_schedule _ _

@[simp] theorem actOn_schedule (s : State) (f : CaseFrame) : (s.actOn f).schedule = s.schedule := by
  unfold State.actOn
  split <;> simp

@[simp] theorem judgeAnswer_schedule (s : State) (sent : DockFrame) (a : Option CaseFrame) :
    (s.judgeAnswer sent a).schedule = s.schedule := by
  unfold State.judgeAnswer
  split
  · split
    · rw [actOn_schedule, withDock_schedule]
    · exact frameFault_schedule s
  · exact frameFault_schedule s

theorem hearCase_schedule (a : Option CaseFrame) (s : State) : (s.hearCase a).schedule = s.schedule := by
  unfold State.hearCase
  split
  · rfl
  · split
    · rfl
    · split
      · exact endExchange_schedule s
      · rw [sendAtOnce_schedule, judgeAnswer_schedule, endExchange_schedule]

theorem answerTimesOut_schedule (s : State) : s.answerTimesOut.schedule = s.schedule := by
  unfold State.answerTimesOut
  split
  · rfl
  · split
    · exact endExchange_schedule s
    · rw [judgeAnswer_schedule, endExchange_schedule]

/-- A timer of a session state ends the session in that state, and has no effect in another (R51, R52, R57, R63). -/
theorem timerEnds_schedule (q : SessionState) (o : SessionOutcome) (s : State) :
    (if s.dock.session = q then s.endUncommitted o else s).schedule = s.schedule := by
  split <;> simp

/-- The refused display ends (R46). -/
theorem displayEnds_schedule (s : State) :
    (if s.dock.indicator = .refused then s.withDock { s.dock with indicator := .off, displayTimer := none } else s).schedule =
      s.schedule := by
  split <;> simp

/-! ### The fire unit's events -/

theorem channelChanges_schedule (s : State) (k : Nat) (c : ChannelState) : (s.channelChanges k c).schedule = s.schedule := by
  unfold State.channelChanges
  dsimp only
  split <;> simp [State.recordChannel]

theorem callOperated_schedule (s : State) : s.callOperated.schedule = s.schedule := evaluate_schedule _

theorem recordSwitch_schedule (s : State) (w : Switch) (on : Bool) : (s.recordSwitch w on).schedule = s.schedule := by
  cases w <;> rfl

theorem countdownExpires_schedule (s : State) : s.countdownExpires.schedule = s.schedule := by
  unfold State.countdownExpires
  split <;> simp

theorem pulseEnds_schedule (s : State) : s.pulseEnds.schedule = s.schedule := by
  unfold State.pulseEnds
  split <;> simp

theorem soakEnds_schedule (s : State) : s.soakEnds.schedule = s.schedule := by
  unfold State.soakEnds
  split <;> simp

/-! ### The zone line and the transfers -/

theorem offerOutcome_schedule (s : State) (id : Ident) (n : Nat) (o : SendOutcome) : (s.offerOutcome id n o).schedule = s.schedule := by
  unfold State.offerOutcome
  (repeat' split) <;> simp

theorem takeUndelivered_schedule (s : State) (id : Ident) (dest n : Nat) : (s.takeUndelivered id dest n).schedule = s.schedule := by
  unfold State.takeUndelivered
  split <;> simp

@[simp] theorem peerOutcome_schedule (s : State) (m : PeerOut) (o : SendOutcome) : (s.peerOutcome m o).schedule = s.schedule := by
  unfold State.peerOutcome
  split <;> simp [offerOutcome_schedule, takeUndelivered_schedule]

@[simp] theorem popPeerOut_schedule (s : State) : s.popPeerOut.schedule = s.schedule := rfl
@[simp] theorem popAnswer_schedule (s : State) : s.popAnswer.schedule = s.schedule := rfl
@[simp] theorem takeMark_schedule (s : State) (mark : Byte) : (s.takeMark mark).schedule = s.schedule := rfl
@[simp] theorem drive_schedule (s : State) (a : Acceptance) : (s.drive a).schedule = s.schedule := rfl

theorem slotStarts_schedule (s : State) : s.slotStarts.schedule = s.schedule := by
  have hmark (item : SlotItem) : (s.markSending item).schedule = s.schedule := by
    unfold State.markSending
    (repeat' split) <;> rfl
  unfold State.slotStarts
  split
  · exact hmark _
  · rfl

@[simp] theorem noticeOutcome_schedule (s : State) (source : Nat) (o : SendOutcome) : (s.noticeOutcome source o).schedule = s.schedule := by
  unfold State.noticeOutcome
  split <;> rfl

@[simp] theorem finishSending_schedule (s : State) (sent : Sending) (o : SendOutcome) : (s.finishSending sent o).schedule = s.schedule := by
  unfold State.finishSending State.finishItem
  split <;> simp

@[simp] theorem readBackConflict_schedule (s : State) (same : Bool) : (s.readBackConflict same).schedule = s.schedule := by
  unfold State.readBackConflict
  split <;> simp

theorem slotEnds_schedule (s : State) (same accept refuse : Bool) : (s.slotEnds same accept refuse).schedule = s.schedule := by
  unfold State.slotEnds
  dsimp only
  split
  · rfl
  · split
    · rw [requestedReset_schedule, finishSending_schedule, readBackConflict_schedule]
    · rw [finishSending_schedule, readBackConflict_schedule]

theorem hearMark_schedule (s : State) (mark : Byte) : (s.hearMark mark).schedule = s.schedule := by
  unfold State.hearMark
  dsimp only
  split
  · rfl
  · split
    · rw [requestedReset_schedule, takeMark_schedule, finishSending_schedule]
    · rw [takeMark_schedule, finishSending_schedule]

theorem cycleTimerEnds_schedule (s : State) (readBack : Byte) : (s.cycleTimerEnds readBack).schedule = s.schedule := by
  rw [State.cycleTimerEnds, hearMark_schedule, withLine_schedule]

theorem alarmFieldRead_schedule (s : State) (others : BitVec 33) : (s.alarmFieldRead others).schedule = s.schedule := by
  unfold State.alarmFieldRead
  dsimp only
  split <;> simp

@[simp] theorem hearBeacon_schedule (s : State) (slot : Nat) (b : Beacon) : (s.hearBeacon slot b).schedule = s.schedule := by
  unfold State.hearBeacon
  dsimp only
  (repeat' split) <;> simp

@[simp] theorem judgeMessage_schedule (s : State) (slot : Nat) (kind : Byte) (f : SlotFrame) :
    (s.judgeMessage slot kind f).schedule = s.schedule := by
  have hrequest : (s.admitRequest slot f).schedule = s.schedule := by
    unfold State.admitRequest
    split <;> rfl
  have hpeer (k : PeerKind) : (s.admitPeer slot k f).schedule = s.schedule := by
    unfold State.admitPeer
    split <;> rfl
  unfold State.judgeMessage
  (repeat' split) <;> simp [hrequest, hpeer]

@[simp] theorem hearOwnSlot_schedule (s : State) (kind : Byte) (f : SlotFrame) : (s.hearOwnSlot kind f).schedule = s.schedule := by
  unfold State.hearOwnSlot
  split <;> simp

theorem hearSlot_schedule (slot : Nat) (kind : Byte) (f : SlotFrame) (s : State) : (s.hearSlot slot kind f).schedule = s.schedule := by
  have hother : (s.hearOther slot kind f).schedule = s.schedule := by
    unfold State.hearOther
    (repeat' split) <;> simp
  unfold State.hearSlot
  split
  · split
    · exact hearOwnSlot_schedule s kind f
    · exact hother
  · rfl

theorem conflictShows_schedule (s : State) (sign : ConflictSign) : (s.conflictShows sign).schedule = s.schedule := by
  unfold State.conflictShows
  (repeat' split) <;> simp

/-- A transfer message taken changes the blocks alone where what is done with it does. -/
theorem takePeer_schedule {act : PeerIn → State → State} (h : ∀ (m : PeerIn) (t : State), (act m t).schedule = t.schedule)
    (kind : PeerKind) (s : State) : (s.takePeer kind act).schedule = s.schedule := by
  have hpop : s.popPeer.schedule = s.schedule := rfl
  unfold State.takePeer
  split
  · split
    · rfl
    · next m _ _ =>
      split
      · split
        · exact (h m _).trans hpop
        · exact hpop
      · rfl
  · rfl

theorem takeOffer_schedule (m : PeerIn) (s : State) : (takeOffer m s).schedule = s.schedule := by
  unfold takeOffer
  (repeat' split) <;> rfl

theorem takeTake_schedule (m : PeerIn) (s : State) : (takeTake m s).schedule = s.schedule := by
  unfold takeTake
  (repeat' split) <;> rfl

theorem takeDecline_schedule (m : PeerIn) (s : State) : (takeDecline m s).schedule = s.schedule := by
  unfold takeDecline
  (repeat' split) <;> simp

theorem takeWithdraw_schedule (m : PeerIn) (s : State) : (takeWithdraw m s).schedule = s.schedule := by
  unfold takeWithdraw
  split
  · rfl
  · split
    · rfl
    · exact dropCartridge_schedule s _ _

@[simp] theorem lateArrived_schedule (s : State) (id : Ident) (sender n : Nat) : (s.lateArrived id sender n).schedule = s.schedule := by
  unfold State.lateArrived
  (repeat' split) <;> simp

theorem takeArrived_schedule (m : PeerIn) (s : State) : (takeArrived m s).schedule = s.schedule := by
  unfold takeArrived
  (repeat' split) <;> simp

theorem offerWaitEnds_schedule (s : State) (id : Ident) : (s.offerWaitEnds id).schedule = s.schedule := by
  unfold State.offerWaitEnds
  split
  · rfl
  · split
    · exact keepCartridge_schedule s _ _ _
    · rfl

theorem transitLimitEnds_schedule (s : State) (id : Ident) : (s.transitLimitEnds id).schedule = s.schedule := by
  unfold State.transitLimitEnds
  split
  · rfl
  · split
    · exact expireTransit_schedule s _
    · rfl

theorem inboundTransitEnds_schedule (s : State) (id : Ident) : (s.inboundTransitEnds id).schedule = s.schedule := by
  unfold State.inboundTransitEnds
  split
  · rfl
  · split
    · exact dropCartridge_schedule s _ _
    · rfl

/-! ### Requests -/

@[simp] theorem refuse_state (s : State) (r : Result) : (s.refuse r).state = s := rfl
@[simp] theorem doneReply_state (s : State) : s.doneReply.state = s := rfl

/-- A request taken changes the blocks alone where its owner does: each check of R178 refuses in the state as it stands. -/
theorem takeRequest_schedule {owner : Request → State → Reply} (h : ∀ (r : Request) (t : State), (owner r t).state.schedule = t.schedule)
    (kind : RequestKind) (fits : List Byte → Bool) (s : State) : (s.takeRequest kind fits owner).schedule = s.schedule := by
  have hpop : s.popRequest.schedule = s.schedule := rfl
  have hjudge (r : Request) (t : State) : (judgeRequest kind owner r t).state.schedule = t.schedule := by
    unfold judgeRequest
    split
    · rfl
    · split
      · rfl
      · split
        · rfl
        · exact h r t
  unfold State.takeRequest
  split
  · rfl
  · next r _ =>
    split
    · exact (queueAnswer_schedule _ _).trans ((hjudge r _).trans hpop)
    · rfl

theorem takeUnknown_schedule (s : State) : s.takeUnknown.schedule = s.schedule := by
  unfold State.takeUnknown
  (repeat' split) <;> rfl

theorem enrolReply_schedule (r : Request) (s : State) : (enrolReply r s).state.schedule = s.schedule := by
  unfold enrolReply
  dsimp only
  (repeat' split) <;> simp

theorem retireReply_schedule (r : Request) (s : State) : (retireReply r s).state.schedule = s.schedule := by
  unfold retireReply
  dsimp only
  (repeat' split) <;> simp

theorem shelveReply_schedule (r : Request) (s : State) : (shelveReply r s).state.schedule = s.schedule := by
  unfold shelveReply
  dsimp only
  (repeat' split) <;> simp [State.completeArrival]

theorem queryRecordReply_schedule (r : Request) (s : State) : (queryRecordReply r s).state.schedule = s.schedule := by
  unfold queryRecordReply
  dsimp only
  (repeat' split) <;> rfl

/-- A disposition's change is reached through the shared checks, each of which refuses in the state as it stands (R19). -/
theorem releaseChecked_schedule {go : ReleaseFields → Record → Option Position → Option Nat → Reply} (s : State)
    (h : ∀ f x p a, (go f x p a).state.schedule = s.schedule) (r : Request) : (releaseChecked r s go).state.schedule = s.schedule := by
  unfold releaseChecked
  dsimp only
  split
  · split
    · rfl
    · split
      · exact h _ _ _ _
      · rfl
  · rfl

theorem releaseShelveReply_schedule (r : Request) (s : State) : (releaseShelveReply r s).state.schedule = s.schedule := by
  refine releaseChecked_schedule s (fun f x p a => ?_) r
  split <;> rfl

theorem releaseConditionReply_schedule (r : Request) (s : State) : (releaseConditionReply r s).state.schedule = s.schedule :=
  releaseChecked_schedule s (fun _ _ _ _ => rfl) r

theorem releaseRemoveReply_schedule (r : Request) (s : State) : (releaseRemoveReply r s).state.schedule = s.schedule :=
  releaseChecked_schedule s (fun _ _ _ _ => rfl) r

theorem checkOutReply_schedule (r : Request) (s : State) : (checkOutReply r s).state.schedule = s.schedule := by
  unfold checkOutReply
  dsimp only
  (repeat' split) <;> rfl

theorem cancelManifestReply_schedule (r : Request) (s : State) : (cancelManifestReply r s).state.schedule = s.schedule := by
  unfold cancelManifestReply
  dsimp only
  (repeat' split) <;> simp

theorem authorizeReply_schedule (r : Request) (s : State) : (authorizeReply r s).state.schedule = s.schedule := by
  unfold authorizeReply
  dsimp only
  repeat' split
  case h_2 bound hbound => exact (enterLoading_schedule bound _).trans (bindManifest_schedule hbound)
  all_goals rfl

theorem denyReply_schedule (r : Request) (s : State) : (denyReply r s).state.schedule = s.schedule := by
  unfold denyReply
  split
  · rfl
  · split
    · rfl
    · exact endUncommitted_schedule s _

theorem moveReply_schedule (r : Request) (s : State) : (moveReply r s).state.schedule = s.schedule := by
  unfold moveReply
  dsimp only
  (repeat' split) <;> rfl

theorem fireResetReply_schedule (r : Request) (s : State) : (fireResetReply r s).state.schedule = s.schedule := by
  unfold fireResetReply
  (repeat' split) <;> simp [State.fireResetTaken]

/-- The acceptance reaches every block, and the queue and the time base stand outside them (R181). -/
theorem acceptConfigure_schedule (s : State) (config : ConfigRecord) (sender : Nat) :
    (s.acceptConfigure config sender).schedule = s.schedule := by
  have hprobe (t : State) (k : Nat) : (t.dropProbe k).schedule = t.schedule := by
    unfold State.dropProbe
    split <;> simp
  have hclimate (t : State) : t.configureClimate.schedule = t.schedule := by
    rw [State.configureClimate, formation_schedule, State.dropHeld, withClimate_schedule, foldl_keeps State.schedule _ hprobe]
  have hfire (t : State) (before : List Group) : (t.configureFire before).schedule = t.schedule := by simp [State.configureFire]
  rw [State.acceptConfigure, hfire, hclimate]
  rfl

theorem configureReply_schedule (r : Request) (s : State) : (configureReply r s).state.schedule = s.schedule := by
  unfold configureReply
  split
  · rfl
  · dsimp only
    rw [acceptConfigure_schedule]

/-! ### Every command -/

/-- A command taken on the settled state answers next, and changes the blocks alone where its effect does. -/
theorem taken_schedule {effect : State → State} (h : ∀ u : State, (effect u).schedule = u.schedule) (s : State) :
    ∃ t, taken s effect = .next t ∧ t.schedule = s.schedule := ⟨_, rfl, (h _).trans (settle_schedule s)⟩

/-- A row that takes the requests of a kind, where their owner changes the blocks alone. -/
theorem taken_request_schedule {owner : Request → State → Reply} (h : ∀ (r : Request) (u : State), (owner r u).state.schedule = u.schedule)
    (kind : RequestKind) (fits : List Byte → Bool) (s : State) :
    ∃ t, taken s (fun u => u.takeRequest kind fits owner) = .next t ∧ t.schedule = s.schedule :=
  taken_schedule (takeRequest_schedule h kind fits) s

/-- Every command but the cold start and the second answers next, with the queue and the time base as they were. -/
theorem exec_schedule (c : Instr) (s : State) (hcold : c ≠ .coldStart) (hsecond : c ≠ .zoneClockSecond) :
    ∃ t, exec c s = .next t ∧ t.schedule = s.schedule := by
  cases c with
  | coldStart => exact absurd rfl hcold
  | warmReset => exact taken_schedule (fun u => warmReset_schedule u _) s
  | zoneClockSecond => exact absurd rfl hsecond
  | minuteEvent => exact taken_schedule minuteStep_schedule s
  | manifestExpiry => exact ⟨_, rfl, expireManifestStep_schedule s⟩
  | rollover => exact ⟨_, rfl, rolloverStep_schedule s⟩
  | conditioningComplete => exact ⟨_, rfl, completeStep_schedule s⟩
  | enrol => exact taken_request_schedule enrolReply_schedule _ _ s
  | retire => exact taken_request_schedule retireReply_schedule _ _ s
  | shelve => exact taken_request_schedule shelveReply_schedule _ _ s
  | queryRecord => exact taken_request_schedule queryRecordReply_schedule _ _ s
  | releaseSuspectShelve => exact taken_request_schedule releaseShelveReply_schedule _ _ s
  | releaseSuspectCondition => exact taken_request_schedule releaseConditionReply_schedule _ _ s
  | releaseSuspectRemove => exact taken_request_schedule releaseRemoveReply_schedule _ _ s
  | checkOut => exact taken_request_schedule checkOutReply_schedule _ _ s
  | cancelManifest => exact taken_request_schedule cancelManifestReply_schedule _ _ s
  | authorize => exact taken_request_schedule authorizeReply_schedule _ _ s
  | deny => exact taken_request_schedule denyReply_schedule _ _ s
  | move => exact taken_request_schedule moveReply_schedule _ _ s
  | queryZone => exact taken_request_schedule (owner := queryZoneReply) (fun _ _ => rfl) _ _ s
  | excursionClear => exact taken_request_schedule (owner := excursionClearReply) (fun _ _ => rfl) _ _ s
  | fireReset => exact taken_request_schedule fireResetReply_schedule _ _ s
  | configure => exact taken_request_schedule configureReply_schedule _ _ s
  | reset => exact taken_request_schedule (owner := resetReply) (fun _ _ => rfl) _ _ s
  | unknownRequest => exact taken_schedule takeUnknown_schedule s
  | resetAnswerTimeout => exact taken_schedule requestedReset_schedule s
  | keyTurn on => exact taken_schedule (fun u => withPins_schedule u { u.pins with keyOn := on }) s
  | cycleMark mark => exact taken_schedule (fun u => hearMark_schedule u mark) s
  | cycleTimerExpiry readBack => exact taken_schedule (fun u => cycleTimerEnds_schedule u readBack) s
  | superframeEnd => exact ⟨_, rfl, superframeStep_schedule s⟩
  | peerAbsent a => exact ⟨_, rfl, makeAbsent_schedule s a.val⟩
  | alarmField others => exact taken_schedule (fun u => alarmFieldRead_schedule u others) s
  | beaconReceived slot f => exact taken_schedule (hearSlot_schedule slot.val 1 f) s
  | requestReceived slot f => exact taken_schedule (hearSlot_schedule slot.val 2 f) s
  | peerMessageReceived slot kind f => exact taken_schedule (hearSlot_schedule slot.val (peerKindByte kind) f) s
  | ignoredMessage slot kind f => exact taken_schedule (hearSlot_schedule slot.val (ignoredKindByte kind) f) s
  | unknownKindMessage slot kind f => exact taken_schedule (hearSlot_schedule slot.val kind f) s
  | addressConflict sign => exact taken_schedule (fun u => conflictShows_schedule u sign) s
  | slotStart => exact taken_schedule slotStarts_schedule s
  | slotEnd same accept refuse => exact taken_schedule (fun u => slotEnds_schedule u same accept refuse) s
  | offer => exact taken_schedule (takePeer_schedule takeOffer_schedule .offer) s
  | take => exact taken_schedule (takePeer_schedule takeTake_schedule .take) s
  | decline => exact taken_schedule (takePeer_schedule takeDecline_schedule .decline) s
  | withdraw => exact taken_schedule (takePeer_schedule takeWithdraw_schedule .withdraw) s
  | arrived => exact taken_schedule (takePeer_schedule takeArrived_schedule .arrived) s
  | offerWaitExpiry id => exact taken_schedule (fun u => offerWaitEnds_schedule u id) s
  | transitLimitExpiry id => exact ⟨_, rfl, transitLimitEnds_schedule s id⟩
  | inboundTransitExpiry id => exact ⟨_, rfl, inboundTransitEnds_schedule s id⟩
  | caseArrival => exact taken_schedule caseArrives_schedule s
  | caseRemoval => exact taken_schedule caseLeaves_schedule s
  | closeKey => exact taken_schedule closePressed_schedule s
  | cancelKey => exact taken_schedule cancelPressed_schedule s
  | dockFrameSend => exact taken_schedule sendNext_schedule s
  | dockAnswerTimeout => exact taken_schedule answerTimesOut_schedule s
  | malformedCaseFrame bytes => exact taken_schedule (hearCase_schedule _) s
  | awake => exact taken_schedule (hearCase_schedule _) s
  | identity caseId badge count intent intervals => exact taken_schedule (hearCase_schedule _) s
  | scan id => exact taken_schedule (hearCase_schedule _) s
  | nothing => exact taken_schedule (hearCase_schedule _) s
  | echo count digest => exact taken_schedule (hearCase_schedule _) s
  | done count => exact taken_schedule (hearCase_schedule _) s
  | wakingTimeout => exact taken_schedule (timerEnds_schedule _ _) s
  | identityTimeout => exact taken_schedule (timerEnds_schedule _ _) s
  | authTimeout => exact taken_schedule (timerEnds_schedule _ _) s
  | idleTimeout => exact taken_schedule (timerEnds_schedule _ _) s
  | refusedDisplayExpiry => exact taken_schedule displayEnds_schedule s
  | pollRound => exact taken_schedule startRound_schedule s
  | probeAnswer bytes => exact taken_schedule (fun u => hearProbe_schedule u bytes) s
  | probeAnswerTimeout => exact taken_schedule probeTimesOut_schedule s
  | channelEvent channel state => exact taken_schedule (fun u => channelChanges_schedule u channel.val state) s
  | manualCallOperation => exact taken_schedule callOperated_schedule s
  | manualCallRelease => exact taken_schedule (effect := State.callReleased) (fun _ => rfl) s
  | holdOrIsolateChange switch on =>
    exact taken_schedule (fun u => (judgeSwitches_schedule _).trans (recordSwitch_schedule u switch on)) s
  | doorChange isOpen => exact taken_schedule (effect := fun u => u.recordDoor isOpen) (fun _ => rfl) s
  | agentReadyChange ready => exact taken_schedule (effect := fun u => u.recordAgent ready) (fun _ => rfl) s
  | countdownExpiry => exact taken_schedule countdownExpires_schedule s
  | pulseEnd => exact taken_schedule pulseEnds_schedule s
  | soakExpiry => exact taken_schedule soakEnds_schedule s
  | addressStrapChange a => exact taken_schedule (fun u => withPins_schedule u { u.pins with straps := a.val }) s

/-- A cold start takes the time base to 0 and keeps the queue (R24, log 4). -/
theorem coldStarted_pending (s : State) : s.coldStarted.pending = s.pending := State.inputSurvey_pending _

/-- A second, with the minute that may stand before it, keeps the queue (R13, log 15). -/
theorem zoneClockSecond_pending (s : State) : s.settle.minuteStep.settle.second.pending = s.pending := by
  have hbefore : s.settle.minuteStep.settle.schedule = s.schedule := by simp
  exact (second_pending _).trans (schedule_eq_iff.1 hbefore).1

/-- Settles O2: the two commands that move the time base keep the queue, and every other one keeps both (`exec_schedule`). -/
theorem everyCommandAnswersAndKeepsQueue : Obligations.EveryCommandAnswersAndKeepsQueue := by
  intro c s
  by_cases hcold : c = .coldStart
  · subst hcold
    exact ⟨_, rfl, coldStarted_pending s, fun h => absurd rfl h⟩
  by_cases hsecond : c = .zoneClockSecond
  · subst hsecond
    exact ⟨_, rfl, zoneClockSecond_pending s, fun _ h => absurd rfl h⟩
  obtain ⟨t, hnext, hkept⟩ := exec_schedule c s hcold hsecond
  obtain ⟨hpending, hnow⟩ := schedule_eq_iff.1 hkept
  exact ⟨t, hnext, hpending, fun _ _ => hnow⟩

end Sys2Proof.Machine
